-- ==== Sys2Proof/Word.lean ====
section
/-! DEFINITION. The word types of RSACORE-1 (`00_scope.md` R8, R12; `30_encoding.md` R81, R82). -/

namespace Sys2Proof

/-- A command word, a control or status register, a counter or a limb: 32 bits (R8). -/
abbrev Word := BitVec 32

/-- A 4-bit register number, `r0` to `r15` (R20, R81). -/
abbrev Reg := BitVec 4

/-- The 16-bit immediate field of format I (R82). -/
abbrev Imm16 := BitVec 16

/-- The 10-bit word index that selects one word of the register map (R60). -/
abbrev WordIdx := BitVec 10

end Sys2Proof
end

