-- ==== Sys2Proof/Syntax.lean ====
section
/-! DEFINITION. The commands of RSACORE-1: one constructor per row of `30_encoding.md` R85, in the table's order,
operands in assembler order. -/

namespace Sys2Proof

/-- A command. Register operands are register numbers; `imm` is the raw 16-bit field, whose reading as `simm` or
`uimm` (R84) belongs to the meaning. -/
inductive Instr where
  | nop
  | add (rd ra rb : Reg)
  | sub (rd ra rb : Reg)
  | addi (rd ra : Reg) (imm : Imm16)
  | ldi (rd : Reg) (imm : Imm16)
  | mov (rd ra : Reg)
  | cmp (ra rb : Reg)
  | cmpi (ra : Reg) (imm : Imm16)
  | tst (ra : Reg)
  | mul (rd ra rb : Reg)
  | mulmod (rd ra rb rc : Reg)
  | montmul (rd ra rb rc : Reg)
  | montr2 (rd rc : Reg)
  | modexp (rd ra rb rc : Reg)
  | crypt (rd ra rb rc : Reg)
  | gcd (rd ra rb : Reg)
  | xgcd (rd rx ry ra rb : Reg)
  | modinv (rd ra rc : Reg)
  | jacobi (rd ra rc : Reg)
  | jacobir (rd ra rc : Reg)
  | tdiv (ra : Reg) (imm : Imm16)
  | tfilt (ra : Reg)
  | ssround (ra rb : Reg)
  | ptest (ra : Reg) (imm : Imm16)
  | pcand (ra : Reg) (imm : Imm16)
  deriving DecidableEq, Repr

end Sys2Proof
end

