-- ==== Sys2Proof/WellFormed.lean ====
section
/-! DEFINITION. Which commands have a word (`30_encoding.md` R87 (c)). -/

namespace Sys2Proof

/-- The one constraint the field widths do not carry: the three destinations of XGCD are pairwise different
(R87 (c), R141). -/
def wellFormed : Instr → Bool
  | .xgcd rd rx ry _ _ => rd != rx && rd != ry && rx != ry
  | .nop => true
  | .add _ _ _ => true
  | .sub _ _ _ => true
  | .addi _ _ _ => true
  | .ldi _ _ => true
  | .mov _ _ => true
  | .cmp _ _ => true
  | .cmpi _ _ => true
  | .tst _ => true
  | .mul _ _ _ => true
  | .mulmod _ _ _ _ => true
  | .montmul _ _ _ _ => true
  | .montr2 _ _ => true
  | .modexp _ _ _ _ => true
  | .crypt _ _ _ _ => true
  | .gcd _ _ _ => true
  | .modinv _ _ _ => true
  | .jacobi _ _ _ => true
  | .jacobir _ _ _ => true
  | .tdiv _ _ => true
  | .tfilt _ => true
  | .ssround _ _ => true
  | .ptest _ _ => true
  | .pcand _ _ => true

end Sys2Proof
end

