-- ==== Sys2Proof/Decode.lean ====
section
/-! DEFINITION. The command encoding of `30_encoding.md`: the fields of formats R and I (R81, R82), the opcode map
with its must-be-zero fields (R85), the total decoder (R88) that rejects by name (R87), and the encoder. -/

namespace Sys2Proof

/-- The register fields of format R, by their names in R81. -/
inductive FieldName where
  | rd | ra | rb | rc | rx | ry
  deriving DecidableEq, Repr

/-- The lowest bit of a register field (R81). -/
def FieldName.low : FieldName → Nat
  | .rd => 20
  | .ra => 16
  | .rb => 12
  | .rc => 8
  | .rx => 4
  | .ry => 0

/-- Bits 31:24 (R80). -/
def opcodeOf (w : Word) : BitVec 8 := w.extractLsb' 24 8

/-- One register field of a word (R81). -/
def regField (f : FieldName) (w : Word) : Reg := w.extractLsb' f.low 4

/-- `imm16`, bits 15:0 of format I (R82). -/
def immField (w : Word) : Imm16 := w.extractLsb' 0 16

/-- Why a word is illegal (R87 (a), (b), (c)). -/
inductive Illegal where
  /-- (a) the opcode is not in R85 -/
  | undefinedOpcode
  /-- (b) a must-be-zero field is not zero -/
  | nonZeroField
  /-- (c) the destinations of XGCD are not pairwise different -/
  | coincidingDestinations
  deriving DecidableEq, Repr

/-- One row of R85: the opcode, the fields that must be zero, and the command the used fields make. -/
structure OpRow where
  op : BitVec 8
  zero : List FieldName
  build : Word → Instr

/-- R85, rows of NOP, bigint_adder and bigint_comparator. -/
def opRowsBasic : List OpRow :=
  [⟨0x00, [.rd, .ra, .rb, .rc, .rx, .ry], fun _ => .nop⟩,
   ⟨0x01, [.rc, .rx, .ry], fun w => .add (regField .rd w) (regField .ra w) (regField .rb w)⟩,
   ⟨0x02, [.rc, .rx, .ry], fun w => .sub (regField .rd w) (regField .ra w) (regField .rb w)⟩,
   ⟨0x03, [], fun w => .addi (regField .rd w) (regField .ra w) (immField w)⟩,
   ⟨0x04, [.ra], fun w => .ldi (regField .rd w) (immField w)⟩,
   ⟨0x05, [.rb, .rc, .rx, .ry], fun w => .mov (regField .rd w) (regField .ra w)⟩,
   ⟨0x08, [.rd, .rc, .rx, .ry], fun w => .cmp (regField .ra w) (regField .rb w)⟩,
   ⟨0x09, [.rd], fun w => .cmpi (regField .ra w) (immField w)⟩,
   ⟨0x0A, [.rd, .rb, .rc, .rx, .ry], fun w => .tst (regField .ra w)⟩]

/-- R85, rows of montgomery_multiplier, modular_exponentiation_engine and extended_euclidean_core. -/
def opRowsModular : List OpRow :=
  [⟨0x10, [.rc, .rx, .ry], fun w => .mul (regField .rd w) (regField .ra w) (regField .rb w)⟩,
   ⟨0x11, [.rx, .ry], fun w => .mulmod (regField .rd w) (regField .ra w) (regField .rb w) (regField .rc w)⟩,
   ⟨0x12, [.rx, .ry], fun w => .montmul (regField .rd w) (regField .ra w) (regField .rb w) (regField .rc w)⟩,
   ⟨0x13, [.ra, .rb, .rx, .ry], fun w => .montr2 (regField .rd w) (regField .rc w)⟩,
   ⟨0x18, [.rx, .ry], fun w => .modexp (regField .rd w) (regField .ra w) (regField .rb w) (regField .rc w)⟩,
   ⟨0x19, [.rx, .ry], fun w => .crypt (regField .rd w) (regField .ra w) (regField .rb w) (regField .rc w)⟩,
   ⟨0x20, [.rc, .rx, .ry], fun w => .gcd (regField .rd w) (regField .ra w) (regField .rb w)⟩,
   ⟨0x21, [.rc], fun w =>
      .xgcd (regField .rd w) (regField .rx w) (regField .ry w) (regField .ra w) (regField .rb w)⟩,
   ⟨0x22, [.rb, .rx, .ry], fun w => .modinv (regField .rd w) (regField .ra w) (regField .rc w)⟩]

/-- R85, rows of jacobi_symbol_unit, trial_division_filter and primality_test_controller. -/
def opRowsPrimality : List OpRow :=
  [⟨0x28, [.rb, .rx, .ry], fun w => .jacobi (regField .rd w) (regField .ra w) (regField .rc w)⟩,
   ⟨0x29, [.rb, .rx, .ry], fun w => .jacobir (regField .rd w) (regField .ra w) (regField .rc w)⟩,
   ⟨0x30, [.rd], fun w => .tdiv (regField .ra w) (immField w)⟩,
   ⟨0x31, [.rd, .rb, .rc, .rx, .ry], fun w => .tfilt (regField .ra w)⟩,
   ⟨0x38, [.rd, .rc, .rx, .ry], fun w => .ssround (regField .ra w) (regField .rb w)⟩,
   ⟨0x39, [.rd], fun w => .ptest (regField .ra w) (immField w)⟩,
   ⟨0x3A, [.rd], fun w => .pcand (regField .ra w) (immField w)⟩]

/-- The complete opcode map, R85. -/
def opRows : List OpRow := opRowsBasic ++ opRowsModular ++ opRowsPrimality

/-- A row's mask: ones on the opcode bits and on every must-be-zero field (R86). -/
def OpRow.mask (r : OpRow) : Word :=
  r.zero.foldl (fun m f => m ||| (0xF#32 <<< f.low)) 0xFF000000#32

/-- Decoding (R88): the opcode's row, its zero fields, the XGCD constraint, the used fields. Nothing but the word is
consulted. -/
def decode (w : Word) : Except Illegal Instr :=
  match opRows.find? (fun r => r.op == opcodeOf w) with
  | none => .error .undefinedOpcode
  | some r =>
    if r.zero.all (fun f => regField f w == 0) then
      if wellFormed (r.build w) then .ok (r.build w) else .error .coincidingDestinations
    else .error .nonZeroField

/-- A word of format R from its fields (R81). -/
def packR (op : BitVec 8) (rd ra rb rc rx ry : Reg) : Word :=
  op ++ rd ++ ra ++ rb ++ rc ++ rx ++ ry

/-- A word of format I from its fields (R82). -/
def packI (op : BitVec 8) (rd ra : Reg) (imm : Imm16) : Word :=
  op ++ rd ++ ra ++ imm

/-- The word of a command (R81, R82, R85). For an ill-formed XGCD it is the illegal word of its fields. -/
def encode : Instr → Word
  | .nop => packR 0x00 0 0 0 0 0 0
  | .add rd ra rb => packR 0x01 rd ra rb 0 0 0
  | .sub rd ra rb => packR 0x02 rd ra rb 0 0 0
  | .addi rd ra imm => packI 0x03 rd ra imm
  | .ldi rd imm => packI 0x04 rd 0 imm
  | .mov rd ra => packR 0x05 rd ra 0 0 0 0
  | .cmp ra rb => packR 0x08 0 ra rb 0 0 0
  | .cmpi ra imm => packI 0x09 0 ra imm
  | .tst ra => packR 0x0A 0 ra 0 0 0 0
  | .mul rd ra rb => packR 0x10 rd ra rb 0 0 0
  | .mulmod rd ra rb rc => packR 0x11 rd ra rb rc 0 0
  | .montmul rd ra rb rc => packR 0x12 rd ra rb rc 0 0
  | .montr2 rd rc => packR 0x13 rd 0 0 rc 0 0
  | .modexp rd ra rb rc => packR 0x18 rd ra rb rc 0 0
  | .crypt rd ra rb rc => packR 0x19 rd ra rb rc 0 0
  | .gcd rd ra rb => packR 0x20 rd ra rb 0 0 0
  | .xgcd rd rx ry ra rb => packR 0x21 rd ra rb 0 rx ry
  | .modinv rd ra rc => packR 0x22 rd ra 0 rc 0 0
  | .jacobi rd ra rc => packR 0x28 rd ra 0 rc 0 0
  | .jacobir rd ra rc => packR 0x29 rd ra 0 rc 0 0
  | .tdiv ra imm => packI 0x30 0 ra imm
  | .tfilt ra => packR 0x31 0 ra 0 0 0 0
  | .ssround ra rb => packR 0x38 0 ra rb 0 0 0
  | .ptest ra imm => packI 0x39 0 ra imm
  | .pcand ra imm => packI 0x3A 0 ra imm

/-- The command read from a table word of `nbits` bits (bit 0 the least significant; every command is one 32-bit
word, R80): none where the decoder refuses, or where the value is no 32-bit word. -/
def decodeTableWord (nbits w : Nat) : Option Instr :=
  if w % 2 ^ nbits < 2 ^ 32 then (decode (BitVec.ofNat 32 (w % 2 ^ nbits))).toOption else none

end Sys2Proof
end

