-- ==== Sys2Proof/Config.lean ====
section
/-! DEFINITION. What is fixed for one instance of CORE: the width parameter of `00_scope.md` R7, and the
free values of the words the spec leaves unspecified. -/

namespace Sys2Proof

/-- The implementation parameter of R7. `W` is a multiple of 32 with `64 <= W <= 16384`, so `NLIMBS = W / 32`
lies in `[2, 512]`; the field holds `NLIMBS - 2`, so that every value of this type is an admissible instance.
DESIGN CHOICE (log entry 1): the parameter is data, carried by the state. -/
structure Params where
  limbsAboveTwo : Fin 511
  deriving DecidableEq, Repr

/-- `NLIMBS`, limbs per big-integer register (R8). -/
def Params.nlimbs (p : Params) : Nat := p.limbsAboveTwo.val + 2

/-- `W`, magnitude bits of a big-integer register (R7). -/
def Params.W (p : Params) : Nat := 32 * p.nlimbs

/-- `RMONT = 2^W` (R9), which is also the first magnitude a register cannot hold (R20). -/
def Params.rmont (p : Params) : Nat := 2 ^ p.W

/-- The default instance, `W = 4096` (R7): 128 limbs. -/
def Params.standard : Params := ⟨126⟩

/-- FREE VALUE (log entry 5): the unspecified word that the n-th forbidden read of `RSIGN` or `LIMB[k]` returns
(`20_memory.md` R64, R65 (d), (e); U2). It has no body: no statement can rest on a value of it. -/
opaque Config.freeWord : Nat → Word

end Sys2Proof
end

