-- ==== Sys2Proof/Machine/State.lean ====
section
/-! DEFINITION. The state of CORE (`10_state.md`), the agents' turns (`00_scope.md` R15, `20_memory.md` R69), the
reasons a step could stop, and the state after reset (`10_state.md` R52). -/

namespace Sys2Proof.Machine

/-- `FLAGS` (R27), field by field; its word is `Flags.toWord`. -/
structure Flags where
  z : Bool
  n : Bool
  odd : Bool
  lt : Bool
  eq : Bool
  gt : Bool
  div : Bool
  prime : Bool
  jac : BitVec 2
  deriving DecidableEq, Repr

/-- `STATUS` (R34), field by field; its word is `Status.toWord`. -/
structure Status where
  busy : Bool
  done : Bool
  err : Bool
  fault : Bool
  herr : Bool
  deriving DecidableEq, Repr

/-- `CTRL` (R33): the two interrupt enables. `SRST` holds nothing and reads 0. -/
structure Ctrl where
  ieDone : Bool
  ieFault : Bool
  deriving DecidableEq, Repr

/-- A request on the random-source channel (R50). -/
structure DrawReq where
  lo : Int
  hi : Int
  deriving DecidableEq, Repr

/-- The fatal outcomes, `FAULTCODE` 1 to 8 (`60_exceptions.md` R202). -/
inductive FatalCode where
  | illegalCmd | uninit | badModulus | negExponent | overflow | negOperand | domain | rngRange
  deriving DecidableEq, Repr

/-- The recoverable outcomes, `RESULT` 1 and 2 (`60_exceptions.md` R201). -/
inductive RecoverableCode where
  | noInverse | blockTooLarge
  deriving DecidableEq, Repr

/-- How far a primality test has come with the draws it has got (`47_primality_controller.md` R174). -/
inductive TestEnd where
  /-- the test is decided, after this many evaluated rounds -/
  | verdict (prime : Bool) (rounds : Nat)
  /-- another witness is needed and no answer is left -/
  | needDraw
  /-- an answer lies outside the requested range (R50) -/
  | outOfRange
  deriving DecidableEq, Repr

/-- The register an offset of the map selects (R30). -/
inductive MapReg where
  | id | param | ctrl | status | cmd | result | faultcode | faultcmd | flags | rvalid | rounds | attempts | tdhit
  | cmdcnt | rsel | rsign
  | ptab (j : Nat)
  | limb (k : Nat)
  | reserved
  deriving DecidableEq, Repr

/-- One indivisible step of one agent (`20_memory.md` R69; `70_reset_and_hazards.md` R230, R231). -/
inductive Turn where
  /-- the engine's turn: it works on the command in flight, if there is one -/
  | engine
  /-- the host reads the word with this index -/
  | hostRead (widx : WordIdx)
  /-- the host writes the word with this index -/
  | hostWrite (widx : WordIdx) (d : Word)
  /-- the random source answers the outstanding request -/
  | answer (v : Nat)
  /-- the random source answers a request that a reset has withdrawn (R231) -/
  | lateAnswer (v : Nat)
  /-- the reset input is asserted and released (R230) -/
  | hardReset
  deriving DecidableEq, Repr

/-- The state of CORE, with the agents' turns still to come. -/
structure State where
  /-- the width parameter of this instance (R7); no step changes it (log entry 1) -/
  params : Params
  /-- the big-integer registers (R20); the content of register i means nothing while `valid` bit i is 0 (R21) -/
  x : Vector Int 16
  /-- the valid bits, `RVALID` (R21, R39) -/
  valid : BitVec 16
  /-- R27 -/
  flags : Flags
  /-- R34 -/
  status : Status
  /-- R33 -/
  ctrl : Ctrl
  /-- the command latch and `CMD` read-back (R35, R49) -/
  cmd : Word
  /-- `RESULT[7:0]` (R36) -/
  result : BitVec 8
  /-- `FAULTCODE[7:0]` (R37) -/
  faultcode : BitVec 8
  /-- R38 -/
  faultcmd : Word
  /-- R40 -/
  rounds : Word
  /-- R41 -/
  attempts : Word
  /-- `TDHIT[15:0]` (R42) -/
  tdhit : BitVec 16
  /-- R43 -/
  cmdcnt : Word
  /-- `RSEL[3:0]` (R44) -/
  rsel : Reg
  /-- the outstanding draw request (R50) -/
  drawReq : Option DrawReq
  /-- the answers the command in flight has got, in order (R174, R185) -/
  draws : List Nat
  /-- MODEL: the agents' turns still to come, first to move first (log entry 3) -/
  pending : List Turn
  /-- MODEL: the word the last host read returned (log entry 9) -/
  rdata : Word
  /-- MODEL: how many unspecified words have been returned (log entry 5) -/
  freeReads : Nat
  deriving DecidableEq, Repr

/-- Reasons the MODEL stops with a fault: none. Every event the spec calls a fault is a completion that latches
`STATUS.FAULT` (`60_exceptions.md` R204), which is a next state; nobody raises a model fault. -/
inductive Fault where
  deriving DecidableEq, Repr

/-- Reasons the MODEL refuses an instruction. -/
inductive Refusal where
  /-- raised by `exec` alone, for an instruction that has no meaning yet; safe (the model stops). No arm raises it now. -/
  | notModelled (mnemonic : String)
  deriving DecidableEq, Repr

/-- The state right after reset (R52), of an instance with the default width (R7). The contents of the sixteen
invalid registers, which the spec leaves unspecified, are 0 (DESIGN CHOICE, log entry 2); `pending`, `rdata` and
`freeReads` are the model's own (DESIGN CHOICE, log entries 3, 9 and 5). -/
def State.reset : State where
  params := Params.standard
  x := Vector.replicate 16 0
  valid := 0
  flags := ⟨false, false, false, false, false, false, false, false, 0⟩
  status := ⟨false, false, false, false, false⟩
  ctrl := ⟨false, false⟩
  cmd := 0
  result := 0
  faultcode := 0
  faultcmd := 0
  rounds := 0
  attempts := 0
  tdhit := 0
  cmdcnt := 0
  rsel := 0
  drawReq := none
  draws := []
  pending := []
  rdata := 0
  freeReads := 0

end Sys2Proof.Machine
end

