-- ==== Sys2Proof/Machine/Arith.lean ====
section
/-! DEFINITION. The integer functions of the units: division helpers (`00_scope.md` R11), exponentiation
(`43_modexp_engine.md` R132), Euclid (`44_extended_euclid.md` R143), the Jacobi symbol (`45_jacobi_unit.md` R153),
the small-prime filter (`46_trial_division.md` R162, R163) and the primality test (`47_primality_controller.md` R173,
R174). Every value is an exact integer (R10, R190). Each loop of the spec recurs on a fuel that is at least the
quantity the loop strictly decreases, so the fuel never ends it early (log entry 18). -/

namespace Sys2Proof.Machine

/-- `fdiv(a, b)` for `b >= 1`: the largest q with `q * b <= a` (R11). -/
def fdiv (a b : Int) : Int := a / b

/-- `emod(a, m)` for `m >= 1`: the non-negative residue (R11). -/
def emod (a m : Int) : Int := a % m

/-- The loop of R132: `acc` is multiplied by the base of the current bit before the base is squared (C2). -/
def modpowLoop : Nat → Int → Int → Int → Int → Int
  | 0, _, acc, _, _ => acc
  | k + 1, b, acc, e, m =>
    if e ≤ 0 then acc
    else modpowLoop k (emod (b * b) m) (if emod e 2 = 1 then emod (acc * b) m else acc) (fdiv e 2) m

/-- `modpow(base, e, m)` for `e >= 0`, `m >= 1` (R132). -/
def modpow (base e m : Int) : Int := modpowLoop e.toNat (emod base m) (emod 1 m) e m

/-- `RINV(m)` for odd `m >= 1` (R124), the inverse of `RMONT = 2^W` modulo m: `(m + 1) / 2` is the inverse of 2, and
its `W`-th power the inverse of `2^W` (DEDUCED, log entry 12). -/
def rinv (p : Params) (m : Int) : Int := modpow (fdiv (m + 1) 2) p.W m

/-- The loop of R143 on the last two rows `(r, cx, cy)`: it returns the row before the zero remainder. -/
def xgcdLoop : Nat → Int × Int × Int → Int × Int × Int → Int × Int × Int
  | 0, _, row1 => row1
  | k + 1, (r2, cx2, cy2), (r1, cx1, cy1) =>
    if r2 - fdiv r2 r1 * r1 = 0 then (r1, cx1, cy1)
    else xgcdLoop k (r1, cx1, cy1)
      (r2 - fdiv r2 r1 * r1, cx2 - fdiv r2 r1 * cx1, cy2 - fdiv r2 r1 * cy1)

/-- `xgcd(a, b) = (g, cx, cy)` for `a, b >= 0`, with the guards first (R143). -/
def xgcd (a b : Int) : Int × Int × Int :=
  if a = 0 then (b, 0, 1)
  else if b = 0 then (a, 1, 0)
  else xgcdLoop b.toNat (a, 1, 0) (b, 0, 1)

/-- The loops of R153, flattened: an even `a` is halved, an odd `a` is swapped with `n` and reduced (log entry 11). -/
def jacobiLoop : Nat → Int → Int → Int → Int
  | 0, _, n, t => if n = 1 then t else 0
  | k + 1, a, n, t =>
    if a = 0 then (if n = 1 then t else 0)
    else if emod a 2 = 0 then
      jacobiLoop k (fdiv a 2) n (if emod n 8 = 3 ∨ emod n 8 = 5 then -t else t)
    else
      jacobiLoop k (emod n a) a (if emod n 4 = 3 ∧ emod a 4 = 3 then -t else t)

/-- `J(a, n)` for odd `n >= 1` (R153). -/
def jacobi (a n : Int) : Int := jacobiLoop n.toNat (emod a n) n 1

/-- The symbol as the residue the primality test compares: −1 becomes `n - 1` (R151, R173). -/
def jacobiResidue (j n : Int) : Int := if j = -1 then n - 1 else j

/-- `d | v` (R10), for `d >= 1`. -/
def divides (d v : Int) : Bool := decide (emod v d = 0)

/-- The small-prime table `PT[0..14]` (R47, R162). -/
def smallPrimes : List Nat := [2, 3, 5, 7, 11, 13, 17, 19, 23, 29, 31, 37, 41, 43, 47]

/-- `filter(v)`: the smallest table prime that divides `v` and differs from it, else 0 (R163). -/
def trialFilter (v : Int) : Nat :=
  (smallPrimes.find? (fun (p : Nat) => divides (p : Int) v && decide (v ≠ (p : Int)))).getD 0

/-- `round(n, a)` for odd `n >= 3` and `2 <= a <= n - 1` (R173). -/
def ssRound (n a : Int) : Bool :=
  if (xgcd a n).1 ≠ 1 then false
  else decide (jacobiResidue (jacobi a n) n = modpow a (fdiv (n - 1) 2) n)

/-- The round loop of R174: `left` rounds still to do, `r` evaluated, on the answers not yet used. -/
def isprobLoop (n : Int) : Nat → Nat → List Nat → TestEnd
  | 0, r, _ => .verdict true r
  | _ + 1, _, [] => .needDraw
  | left + 1, r, a :: rest =>
    if (a : Int) < 2 ∨ n - 1 < (a : Int) then .outOfRange
    else if ssRound n a then isprobLoop n left (r + 1) rest
    else .verdict false (r + 1)

/-- `isprob(n, rounds)` on the answers `draws` (R174): the preconditions in their order, then the rounds. -/
def isprob (n : Int) (rounds : Nat) (draws : List Nat) : TestEnd :=
  if n < 2 then .verdict false 0
  else if n = 2 then .verdict true 0
  else if emod n 2 = 0 then .verdict false 0
  else isprobLoop n rounds 0 draws

end Sys2Proof.Machine
end

