-- ==== Sys2Proof/Machine/Flags.lean ====
section
/-! DEFINITION. The flag computations (`10_state.md` R28, `48_system.md` R191) and the words of the flag, status and
control registers (`10_state.md` R27, R33, R34). -/

namespace Sys2Proof.Machine

/-- `setZNO(v)` (R191): an odd negative number is odd. -/
def Flags.setZNO (f : Flags) (v : Int) : Flags :=
  { f with z := decide (v = 0), n := decide (v < 0), odd := decide (emod v 2 = 1) }

/-- The three-way compare of signed integers (R110). -/
def Flags.setCompare (f : Flags) (a b : Int) : Flags :=
  { f with lt := decide (a < b), eq := decide (a = b), gt := decide (b < a) }

/-- `DIV` (R160, R161, R172). -/
def Flags.setDiv (f : Flags) (hit : Bool) : Flags := { f with div := hit }

/-- `PRIME` (R170 to R172). -/
def Flags.setPrime (f : Flags) (verdict : Bool) : Flags := { f with prime := verdict }

/-- A Jacobi symbol as a 2-bit two's-complement number (R27, R150). -/
def jacCode (j : Int) : BitVec 2 := if j = 0 then 0b00 else if j = 1 then 0b01 else 0b11

/-- `JAC` (R150, R151). -/
def Flags.setJac (f : Flags) (j : Int) : Flags := { f with jac := jacCode j }

/-- The `FLAGS` register (R27): `JAC` in bits 9:8, then PRIME, DIV, GT, EQ, LT, ODD, N, and Z in bit 0. -/
def Flags.toWord (f : Flags) : Word :=
  0#22 ++ f.jac ++ BitVec.ofBool f.prime ++ BitVec.ofBool f.div ++ BitVec.ofBool f.gt ++ BitVec.ofBool f.eq
    ++ BitVec.ofBool f.lt ++ BitVec.ofBool f.odd ++ BitVec.ofBool f.n ++ BitVec.ofBool f.z

/-- The `STATUS` register (R34): HERR in bit 4, then FAULT, ERR, DONE, and BUSY in bit 0. -/
def Status.toWord (st : Status) : Word :=
  0#27 ++ BitVec.ofBool st.herr ++ BitVec.ofBool st.fault ++ BitVec.ofBool st.err ++ BitVec.ofBool st.done
    ++ BitVec.ofBool st.busy

/-- The `CTRL` register (R33): `SRST` and the reserved bits read 0. -/
def Ctrl.toWord (c : Ctrl) : Word := 0#30 ++ BitVec.ofBool c.ieFault ++ BitVec.ofBool c.ieDone

end Sys2Proof.Machine
end

