-- ==== Sys2Proof/Machine/Ops.lean ====
section
/-! DEFINITION. The shared operations on the state: the register file (`10_state.md` R20, R21), issue and the three
completions (`48_system.md` R185, `60_exceptions.md` R203, R204), the range-checked write-back (R186, R189), the
random-source channel (R50), and reset (`70_reset_and_hazards.md` R230 to R232). -/

namespace Sys2Proof.Machine

/-- `valid[r]` (R21). -/
def State.isValid (s : State) (r : Reg) : Bool := s.valid.getLsbD r.toNat

/-- The content of `x[r]`; it means something only when `isValid` (R13, R21). -/
def State.reg (s : State) (r : Reg) : Int := s.x[r.toNat]'r.isLt

/-- `x[r] <- v`, which makes the register valid (R13). -/
def State.setReg (s : State) (r : Reg) (v : Int) : State :=
  { s with x := s.x.set r.toNat v r.isLt, valid := s.valid ||| 1#16 <<< r.toNat }

/-- A register can hold `v`: `abs(v) <= 2^W - 1` (R20, R189), said as: no magnitude bit at or above bit `W` is set. -/
def fits (p : Params) (v : Int) : Bool := v.natAbs >>> p.W == 0

/-- `FAULTCODE` of a fatal outcome (R202). -/
def FatalCode.code : FatalCode → BitVec 8
  | .illegalCmd => 1
  | .uninit => 2
  | .badModulus => 3
  | .negExponent => 4
  | .overflow => 5
  | .negOperand => 6
  | .domain => 7
  | .rngRange => 8

/-- `RESULT` of a recoverable outcome (R201). -/
def RecoverableCode.code : RecoverableCode → BitVec 8
  | .noInverse => 1
  | .blockTooLarge => 2

/-- The command is no longer in flight, so its channel traffic is over: no request is outstanding and no answer is
kept (R49, R50; DEDUCED, log entry 6). -/
def State.endDraws (s : State) : State := { s with drawReq := none, draws := [] }

/-- Outcome OK (R185 (a)), on a state that already has the command's own writes. -/
def completeOk (s : State) : State :=
  { s.endDraws with
    result := 0
    status := { s.status with busy := false, done := true }
    cmdcnt := s.cmdcnt + 1 }

/-- Outcome recoverable (R185 (b), R203): no register, flag or unit counter is written. -/
def completeRecoverable (c : RecoverableCode) (s : State) : State :=
  { s.endDraws with
    result := c.code
    status := { s.status with busy := false, done := true, err := true }
    cmdcnt := s.cmdcnt + 1 }

/-- TAKING A FATAL FAULT, the trap entry of this machine (R185 (c), R204): the code and the command word are recorded,
the engine leaves `BUSY`, and nothing else changes. The way back is `resetCore` (R205, R210). -/
def completeFatal (c : FatalCode) (s : State) : State :=
  { s.endDraws with
    status := { s.status with busy := false, fault := true }
    faultcode := c.code
    faultcmd := s.cmd }

/-- The writes of a command, applied together. -/
def State.setRegs (s : State) (ws : List (Reg × Int)) : State :=
  ws.foldl (fun t w => t.setReg w.1 w.2) s

/-- Steps (5) and (6) of R186: every value about to be written is range-checked (R189), then the registers and the
flags are committed. -/
def writeBack (ws : List (Reg × Int)) (f : Flags) (s : State) : State :=
  if ws.all (fun w => fits s.params w.2) then completeOk { s.setRegs ws with flags := f }
  else completeFatal .overflow s

/-- Write-back of the one result of most commands, with `setZNO` of it (R28). -/
def writeResult (rd : Reg) (v : Int) (s : State) : State := writeBack [(rd, v)] (s.flags.setZNO v) s

/-- Issue of an accepted command word (R185): nothing else changes. -/
def issue (w : Word) (s : State) : State :=
  { s with cmd := w, status := { s.status with busy := true, done := false, err := false } }

/-- A host error (R65): it sets `HERR` and has no other effect. -/
def hostError (s : State) : State := { s with status := { s.status with herr := true } }

/-- The engine asks the random source for a value in `[lo, hi]` and stays busy (R50, R240). -/
def requestDraw (lo hi : Int) (s : State) : State := { s with drawReq := some ⟨lo, hi⟩ }

/-- A response of the random source: it answers the outstanding request; with none outstanding it is ignored (R50,
R231; log entry 7). -/
def takeAnswer (v : Nat) (s : State) : State :=
  if s.drawReq.isSome then { s with drawReq := none, draws := s.draws ++ [v] } else s

/-- Reset, by the reset input or by `CTRL.SRST` (R52, R230 to R232), in any state: a command in flight and an
outstanding request are dropped. The instance's width and the agents' own data (the turns to come, the word the host
read last, the count of free words) are not CORE's to reset (log entry 10). -/
def resetCore (s : State) : State :=
  { State.reset with params := s.params, pending := s.pending, rdata := s.rdata, freeReads := s.freeReads }

/-- What the engine reads from the command latch (R49, R88). -/
def fetch (s : State) : Except Illegal Instr := decode s.cmd

/-- The completion of an illegal word, whichever its reason (R87, R186 (1)). -/
def illegalWord (_ : Illegal) (s : State) : State := completeFatal .illegalCmd s

end Sys2Proof.Machine
end

