-- ==== Sys2Proof/Machine/Operands.lean ====
section
/-! DEFINITION. The operand forms: the two readings of the immediate (`30_encoding.md` R84) and the source registers,
whose validity is checked before any operand check (`48_system.md` R186 (2), R188). -/

namespace Sys2Proof.Machine

/-- `simm = sext16(imm16)` (R84). -/
def simm (imm : Imm16) : Int := imm.toInt

/-- `uimm = zext(imm16)` (R84). -/
def uimm (imm : Imm16) : Nat := imm.toNat

/-- One source register: `UNINIT` when invalid (R188), else go on with its value. -/
def withSource (ra : Reg) (s : State) (k : Int → State) : State :=
  if s.isValid ra then k (s.reg ra) else completeFatal .uninit s

/-- Two source registers. -/
def withSources2 (ra rb : Reg) (s : State) (k : Int → Int → State) : State :=
  withSource ra s fun a => withSource rb s fun b => k a b

/-- Three source registers. -/
def withSources3 (ra rb rc : Reg) (s : State) (k : Int → Int → Int → State) : State :=
  withSource ra s fun a => withSource rb s fun b => withSource rc s fun c => k a b c

/-- A modulus check: `BAD_MODULUS` for `m <= 0` (R121, C8). -/
def withModulus (m : Int) (s : State) (k : State) : State :=
  if m ≤ 0 then completeFatal .badModulus s else k

end Sys2Proof.Machine
end

