-- ==== Sys2Proof/Machine/Adder.lean ====
section
/-! DEFINITION. bigint_adder (`40_bigint_adder.md`): ADD, SUB, ADDI, LDI, MOV. -/

namespace Sys2Proof.Machine

/-- ADD rd, ra, rb (R100). -/
def execAdd (rd ra rb : Reg) (s : State) : Host.Outcome State Fault Refusal :=
  .next (withSources2 ra rb s fun a b => writeResult rd (a + b) s)

/-- SUB rd, ra, rb (R101): `ra` is the minuend. -/
def execSub (rd ra rb : Reg) (s : State) : Host.Outcome State Fault Refusal :=
  .next (withSources2 ra rb s fun a b => writeResult rd (a - b) s)

/-- ADDI rd, ra, simm (R102). -/
def execAddi (rd ra : Reg) (imm : Imm16) (s : State) : Host.Outcome State Fault Refusal :=
  .next (withSource ra s fun a => writeResult rd (a + simm imm) s)

/-- LDI rd, uimm (R103). -/
def execLdi (rd : Reg) (imm : Imm16) (s : State) : Host.Outcome State Fault Refusal :=
  .next (writeResult rd (uimm imm) s)

/-- MOV rd, ra (R104). -/
def execMov (rd ra : Reg) (s : State) : Host.Outcome State Fault Refusal :=
  .next (withSource ra s fun a => writeResult rd a s)

end Sys2Proof.Machine
end

