-- ==== Sys2Proof/Machine/Comparator.lean ====
section
/-! DEFINITION. bigint_comparator (`41_bigint_comparator.md`): CMP, CMPI, TST. No register is written. -/

namespace Sys2Proof.Machine

/-- CMP ra, rb (R110). -/
def execCmp (ra rb : Reg) (s : State) : Host.Outcome State Fault Refusal :=
  .next (withSources2 ra rb s fun a b => completeOk { s with flags := s.flags.setCompare a b })

/-- CMPI ra, simm (R111). -/
def execCmpi (ra : Reg) (imm : Imm16) (s : State) : Host.Outcome State Fault Refusal :=
  .next (withSource ra s fun a => completeOk { s with flags := s.flags.setCompare a (simm imm) })

/-- TST ra (R112). -/
def execTst (ra : Reg) (s : State) : Host.Outcome State Fault Refusal :=
  .next (withSource ra s fun a => completeOk { s with flags := s.flags.setZNO a })

end Sys2Proof.Machine
end

