-- ==== Sys2Proof/Machine/Euclid.lean ====
section
/-! DEFINITION. extended_euclidean_core (`44_extended_euclid.md`): GCD, XGCD, MODINV. -/

namespace Sys2Proof.Machine

/-- GCD rd, ra, rb (R140). -/
def execGcd (rd ra rb : Reg) (s : State) : Host.Outcome State Fault Refusal :=
  .next (withSources2 ra rb s fun a b =>
    if a < 0 ∨ b < 0 then completeFatal .negOperand s else writeResult rd (xgcd a b).1 s)

/-- XGCD rd, rx, ry, ra, rb (R141): three writes together, flags of the gcd. Coinciding destinations have no legal word;
the meaning answers for them as the decoder does (R87 (c), log entry 14). -/
def execXgcd (rd rx ry ra rb : Reg) (s : State) : Host.Outcome State Fault Refusal :=
  .next (if wellFormed (.xgcd rd rx ry ra rb) then
    withSources2 ra rb s fun a b =>
      if a < 0 ∨ b < 0 then completeFatal .negOperand s
      else writeBack [(rd, (xgcd a b).1), (rx, (xgcd a b).2.1), (ry, (xgcd a b).2.2)]
        (s.flags.setZNO (xgcd a b).1) s
   else illegalWord .coincidingDestinations s)

/-- MODINV rd, ra, rc (R142): the non-negative residue of the Bézout coefficient, or the recoverable NO_INVERSE. -/
def execModinv (rd ra rc : Reg) (s : State) : Host.Outcome State Fault Refusal :=
  .next (withSources2 ra rc s fun a m => withModulus m s
    (if a < 0 then completeFatal .negOperand s
     else if (xgcd a m).1 ≠ 1 then completeRecoverable .noInverse s
     else writeResult rd (emod (xgcd a m).2.1 m) s))

end Sys2Proof.Machine
end

