-- ==== Sys2Proof/Machine/JacobiUnit.lean ====
section
/-! DEFINITION. jacobi_symbol_unit (`45_jacobi_unit.md`): JACOBI, JACOBIR. -/

namespace Sys2Proof.Machine

/-- The result and the flags of a Jacobi command: `v` goes to `rd`, the symbol `j` to `JAC` (R150, R151). -/
def writeSymbol (rd : Reg) (v j : Int) (s : State) : State :=
  writeBack [(rd, v)] ((s.flags.setZNO v).setJac j) s

/-- JACOBI rd, ra, rc (R150): the signed symbol. -/
def execJacobi (rd ra rc : Reg) (s : State) : Host.Outcome State Fault Refusal :=
  .next (withSources2 ra rc s fun a n =>
    if n ≤ 0 ∨ emod n 2 = 0 then completeFatal .domain s
    else writeSymbol rd (jacobi a n) (jacobi a n) s)

/-- JACOBIR rd, ra, rc (R151): the symbol as a residue. -/
def execJacobir (rd ra rc : Reg) (s : State) : Host.Outcome State Fault Refusal :=
  .next (withSources2 ra rc s fun a n =>
    if n ≤ 0 ∨ emod n 2 = 0 then completeFatal .domain s
    else writeSymbol rd (jacobiResidue (jacobi a n) n) (jacobi a n) s)

end Sys2Proof.Machine
end

