-- ==== Sys2Proof/Machine/ModExp.lean ====
section
/-! DEFINITION. modular_exponentiation_engine (`43_modexp_engine.md`): MODEXP, CRYPT. -/

namespace Sys2Proof.Machine

/-- MODEXP rd, ra, rb, rc (R130): the modulus is checked before the exponent. -/
def execModexp (rd ra rb rc : Reg) (s : State) : Host.Outcome State Fault Refusal :=
  .next (withSources3 ra rb rc s fun base e m => withModulus m s
    (if e < 0 then completeFatal .negExponent s else writeResult rd (modpow base e m) s))

/-- CRYPT rd, ra, rb, rc (R131): a block outside `[0, n - 1]` is recoverable; the fatal checks come first. -/
def execCrypt (rd ra rb rc : Reg) (s : State) : Host.Outcome State Fault Refusal :=
  .next (withSources3 ra rb rc s fun val k n => withModulus n s
    (if k < 0 then completeFatal .negExponent s
     else if val < 0 ∨ n ≤ val then completeRecoverable .blockTooLarge s
     else writeResult rd (modpow val k n) s))

end Sys2Proof.Machine
end

