-- ==== Sys2Proof/Machine/Multiplier.lean ====
section
/-! DEFINITION. montgomery_multiplier (`42_montgomery_multiplier.md`): MUL, MULMOD, MONTMUL, MONTR2. -/

namespace Sys2Proof.Machine

/-- MUL rd, ra, rb (R120). -/
def execMul (rd ra rb : Reg) (s : State) : Host.Outcome State Fault Refusal :=
  .next (withSources2 ra rb s fun a b => writeResult rd (a * b) s)

/-- MULMOD rd, ra, rb, rc (R121): the plain modular product, for every modulus `m >= 1`. -/
def execMulmod (rd ra rb rc : Reg) (s : State) : Host.Outcome State Fault Refusal :=
  .next (withSources3 ra rb rc s fun a b m => withModulus m s (writeResult rd (emod (a * b) m) s))

/-- MONTMUL rd, ra, rb, rc (R122): the Montgomery product with radix `2^W`, for an odd modulus. -/
def execMontmul (rd ra rb rc : Reg) (s : State) : Host.Outcome State Fault Refusal :=
  .next (withSources3 ra rb rc s fun a b m => withModulus m s
    (if emod m 2 = 0 then completeFatal .domain s
     else writeResult rd (emod (a * b * rinv s.params m) m) s))

/-- MONTR2 rd, rc (R123): `emod(2^(2W), m)`, for even moduli too. -/
def execMontr2 (rd rc : Reg) (s : State) : Host.Outcome State Fault Refusal :=
  .next (withSource rc s fun m => withModulus m s
    (writeResult rd (emod ((s.params.rmont * s.params.rmont : Nat) : Int) m) s))

end Sys2Proof.Machine
end

