-- ==== Sys2Proof/Machine/TrialDivision.lean ====
section
/-! DEFINITION. trial_division_filter (`46_trial_division.md`): TDIV, TFILT. No register is written. -/

namespace Sys2Proof.Machine

/-- `FLAGS.DIV` and `TDHIT` together: the rejecting divisor, or none when it is 0 (R42, R160, R161). -/
def State.setHit (s : State) (d : Nat) : State :=
  { s with flags := s.flags.setDiv (decide (d ≠ 0)), tdhit := BitVec.ofNat 16 d }

/-- TDIV ra, uimm (R160): plain divisibility by a non-zero immediate. -/
def execTdiv (ra : Reg) (imm : Imm16) (s : State) : Host.Outcome State Fault Refusal :=
  .next (withSource ra s fun v =>
    if uimm imm = 0 then completeFatal .domain s
    else completeOk (s.setHit (if divides (uimm imm) v then uimm imm else 0)))

/-- TFILT ra (R161). -/
def execTfilt (ra : Reg) (s : State) : Host.Outcome State Fault Refusal :=
  .next (withSource ra s fun v => completeOk (s.setHit (trialFilter v)))

end Sys2Proof.Machine
end

