-- ==== Sys2Proof/Machine/Primality.lean ====
section
/-! DEFINITION. primality_test_controller (`47_primality_controller.md`): SSROUND, PTEST, PCAND. No register is
written. -/

namespace Sys2Proof.Machine

/-- The verdict flag and `ROUNDS` together (R40, R175). -/
def State.setVerdict (s : State) (prime : Bool) (r : Nat) : State :=
  { s with flags := s.flags.setPrime prime, rounds := BitVec.ofNat 32 r }

/-- The end of a command that runs `isprob` on `n` (R174): a verdict completes OK on `done`; a bad answer is fatal and
writes nothing (R171); with no answer left the engine asks for one and stays busy (R50, R240; log entry 6). -/
def finishTest (n : Int) (rounds : Nat) (s : State) (done : Bool → Nat → State) : State :=
  match isprob n rounds s.draws with
  | .verdict prime r => completeOk (done prime r)
  | .needDraw => requestDraw 2 (n - 1) s
  | .outOfRange => completeFatal .rngRange s

/-- SSROUND ra, rb (R170): one round with the host's witness. -/
def execSsround (ra rb : Reg) (s : State) : Host.Outcome State Fault Refusal :=
  .next (withSources2 ra rb s fun n a =>
    if n < 3 ∨ emod n 2 = 0 then completeFatal .domain s
    else if a < 2 ∨ n - 1 < a then completeFatal .domain s
    else completeOk (s.setVerdict (ssRound n a) 1))

/-- PTEST ra, uimm (R171). -/
def execPtest (ra : Reg) (imm : Imm16) (s : State) : Host.Outcome State Fault Refusal :=
  .next (withSource ra s fun n => finishTest n (uimm imm) s fun prime r => s.setVerdict prime r)

/-- `ATTEMPTS` counts one more candidate, modulo 2^32 (R41, R176). -/
def State.countAttempt (s : State) : State := { s with attempts := s.attempts + 1 }

/-- PCAND ra, uimm (R172): the filter, then the test when it does not reject. -/
def execPcand (ra : Reg) (imm : Imm16) (s : State) : Host.Outcome State Fault Refusal :=
  .next (withSource ra s fun n =>
    if trialFilter n ≠ 0 then
      completeOk ((s.setHit (trialFilter n)).setVerdict false 0).countAttempt
    else finishTest n (uimm imm) s fun prime r => ((s.setHit 0).setVerdict prime r).countAttempt)

end Sys2Proof.Machine
end

