-- ==== Sys2Proof/Machine/System.lean ====
section
/-! DEFINITION. The command that belongs to no unit (`48_system.md` R192). -/

namespace Sys2Proof.Machine

/-- NOP (R192): nothing but the completion. -/
def execNop (s : State) : Host.Outcome State Fault Refusal := .next (completeOk s)

end Sys2Proof.Machine
end

