-- ==== Sys2Proof/Machine/Dispatch.lean ====
section
/-! DEFINITION. `exec`: the completion of a command (`48_system.md` R185), one arm per constructor of `Instr`. -/

namespace Sys2Proof.Machine

def exec (i : Instr) (s : State) : Host.Outcome State Fault Refusal :=
  match i with
  | .nop => Sys2Proof.Machine.execNop s
  | .add rd ra rb => Sys2Proof.Machine.execAdd rd ra rb s
  | .sub rd ra rb => Sys2Proof.Machine.execSub rd ra rb s
  | .addi rd ra imm => Sys2Proof.Machine.execAddi rd ra imm s
  | .ldi rd imm => Sys2Proof.Machine.execLdi rd imm s
  | .mov rd ra => Sys2Proof.Machine.execMov rd ra s
  | .cmp ra rb => Sys2Proof.Machine.execCmp ra rb s
  | .cmpi ra imm => Sys2Proof.Machine.execCmpi ra imm s
  | .tst ra => Sys2Proof.Machine.execTst ra s
  | .mul rd ra rb => Sys2Proof.Machine.execMul rd ra rb s
  | .mulmod rd ra rb rc => Sys2Proof.Machine.execMulmod rd ra rb rc s
  | .montmul rd ra rb rc => Sys2Proof.Machine.execMontmul rd ra rb rc s
  | .montr2 rd rc => Sys2Proof.Machine.execMontr2 rd rc s
  | .modexp rd ra rb rc => Sys2Proof.Machine.execModexp rd ra rb rc s
  | .crypt rd ra rb rc => Sys2Proof.Machine.execCrypt rd ra rb rc s
  | .gcd rd ra rb => Sys2Proof.Machine.execGcd rd ra rb s
  | .xgcd rd rx ry ra rb => Sys2Proof.Machine.execXgcd rd rx ry ra rb s
  | .modinv rd ra rc => Sys2Proof.Machine.execModinv rd ra rc s
  | .jacobi rd ra rc => Sys2Proof.Machine.execJacobi rd ra rc s
  | .jacobir rd ra rc => Sys2Proof.Machine.execJacobir rd ra rc s
  | .tdiv ra imm => Sys2Proof.Machine.execTdiv ra imm s
  | .tfilt ra => Sys2Proof.Machine.execTfilt ra s
  | .ssround ra rb => Sys2Proof.Machine.execSsround ra rb s
  | .ptest ra imm => Sys2Proof.Machine.execPtest ra imm s
  | .pcand ra imm => Sys2Proof.Machine.execPcand ra imm s

end Sys2Proof.Machine
end

