-- ==== Sys2Proof/Machine/Port.lean ====
section
/-! DEFINITION. The host port: the register map (`10_state.md` R30 to R48), the access rules and the access function
(`20_memory.md` R60 to R67, R75), and the interrupt line (R51). -/

namespace Sys2Proof.Machine

/-- The register at a word index (offset `4 * widx`), R30. `LIMB[k]` exists for `k < NLIMBS`. -/
def mapReg (p : Params) (widx : WordIdx) : MapReg :=
  match widx.toNat with
  | 0 => .id
  | 1 => .param
  | 2 => .ctrl
  | 3 => .status
  | 4 => .cmd
  | 5 => .result
  | 6 => .faultcode
  | 7 => .faultcmd
  | 8 => .flags
  | 9 => .rvalid
  | 10 => .rounds
  | 11 => .attempts
  | 12 => .tdhit
  | 13 => .cmdcnt
  | 14 => .rsel
  | 15 => .rsign
  | n =>
    if n ≤ 30 then .ptab (n - 16)
    else if 512 ≤ n ∧ n < 512 + p.nlimbs then .limb (n - 512)
    else .reserved

/-- The `PARAM` word (R32): NPT, NREG, NLIMBS. -/
def paramWord (p : Params) : Word := 15#8 ++ 16#8 ++ BitVec.ofNat 16 p.nlimbs

/-- Limb k of a magnitude (R23, R46). -/
def limbOf (m k : Nat) : Word := BitVec.ofNat 32 (m / 2 ^ (32 * k))

/-- A magnitude with limb k replaced (R46). -/
def replaceLimb (m k : Nat) (d : Word) : Nat := m - (limbOf m k).toNat * 2 ^ (32 * k) + d.toNat * 2 ^ (32 * k)

/-- An integer of magnitude `m`, negative when asked; zero has no sign (R20). -/
def signed (neg : Bool) (m : Nat) : Int := if neg then -(m : Int) else m

/-- The value the window edits: a first write into an invalid register starts from zero (R45, R46). -/
def State.windowBase (s : State) : Int := if s.isValid s.rsel then s.reg s.rsel else 0

/-- The interrupt line (R51, R208). -/
def State.irq (s : State) : Bool :=
  (s.status.done && s.ctrl.ieDone) || (s.status.fault && s.ctrl.ieFault)

/-- An unspecified read word (R64; R65 (d), (e)): a fresh free value, and a host error. -/
def unspecifiedRead (s : State) : Word × State :=
  (Config.freeWord s.freeReads, hostError { s with freeReads := s.freeReads + 1 })

/-- A window read: unspecified while busy or of an invalid register (R63, R64). -/
def windowRead (s : State) (w : Word) : Word × State :=
  if s.status.busy || !s.isValid s.rsel then unspecifiedRead s else (w, s)

/-- `MemRead(4 * widx, 4)` (R75): the word returned, and the state, which only the reads of R65 (d), (e), (g) change
(R67). -/
def memRead (widx : WordIdx) (s : State) : Word × State :=
  match mapReg s.params widx with
  | .id => (0x52534301, s)
  | .param => (paramWord s.params, s)
  | .ctrl => (s.ctrl.toWord, s)
  | .status => (s.status.toWord, s)
  | .cmd => (s.cmd, s)
  | .result => (s.result.zeroExtend 32, s)
  | .faultcode => (s.faultcode.zeroExtend 32, s)
  | .faultcmd => (s.faultcmd, s)
  | .flags => (s.flags.toWord, s)
  | .rvalid => (s.valid.zeroExtend 32, s)
  | .rounds => (s.rounds, s)
  | .attempts => (s.attempts, s)
  | .tdhit => (s.tdhit.zeroExtend 32, s)
  | .cmdcnt => (s.cmdcnt, s)
  | .rsel => (s.rsel.zeroExtend 32, s)
  | .rsign => windowRead s (if s.reg s.rsel < 0 then 1 else 0)
  | .ptab j => (BitVec.ofNat 32 (smallPrimes.getD j 0), s)
  | .limb k => windowRead s (limbOf (s.reg s.rsel).natAbs k)
  | .reserved => (0, hostError s)

/-- A host read: the word it returns is left where the host finds it (log entry 9). -/
def hostRead (widx : WordIdx) (s : State) : State :=
  { (memRead widx s).2 with rdata := (memRead widx s).1 }

/-- A write that is allowed only when no command is in flight (R63, R65 (a), (c)). -/
def unlessBusy (s : State) (t : State) : State := if s.status.busy then hostError s else t

/-- A write of `CTRL` (R33, R232): with `SRST` set it resets and discards the other bits. -/
def writeCtrl (d : Word) (s : State) : State :=
  if d.getLsbD 31 then resetCore s
  else { s with ctrl := ⟨d.getLsbD 0, d.getLsbD 1⟩ }

/-- A write of `STATUS` (R34): write-one-to-clear on `DONE` (bit 1) and `HERR` (bit 4). -/
def writeStatus (d : Word) (s : State) : State :=
  { s with status := { s.status with
      done := s.status.done && !d.getLsbD 1
      herr := s.status.herr && !d.getLsbD 4 } }

/-- A write of `CMD` (R185): it issues, or is a host error while busy or faulted (R65 (a), (b)). -/
def writeCmd (d : Word) (s : State) : State :=
  if s.status.busy || s.status.fault then hostError s else issue d s

/-- A write of `RSIGN` (R45). -/
def writeRsign (d : Word) (s : State) : State :=
  s.setReg s.rsel (signed (d.getLsbD 0) s.windowBase.natAbs)

/-- A write of `LIMB[k]` (R46): one limb is replaced, the sign is kept. -/
def writeLimb (k : Nat) (d : Word) (s : State) : State :=
  s.setReg s.rsel (signed (decide (s.windowBase < 0)) (replaceLimb s.windowBase.natAbs k d))

/-- `MemWrite(4 * widx, 4, d)` (R75); a write to a read-only register or a reserved offset is discarded with a host
error (R65 (f), (g)). -/
def memWrite (widx : WordIdx) (d : Word) (s : State) : State :=
  match mapReg s.params widx with
  | .ctrl => writeCtrl d s
  | .status => writeStatus d s
  | .cmd => writeCmd d s
  | .attempts => unlessBusy s { s with attempts := d }
  | .rsel => unlessBusy s { s with rsel := d.extractLsb' 0 4 }
  | .rsign => unlessBusy s (writeRsign d s)
  | .limb k => unlessBusy s (writeLimb k d s)
  | .id => hostError s
  | .param => hostError s
  | .result => hostError s
  | .faultcode => hostError s
  | .faultcmd => hostError s
  | .flags => hostError s
  | .rvalid => hostError s
  | .rounds => hostError s
  | .tdhit => hostError s
  | .cmdcnt => hostError s
  | .ptab _ => hostError s
  | .reserved => hostError s

end Sys2Proof.Machine
end

