-- ==== Sys2Proof/Machine/Step.lean ====
section
/-! DEFINITION. One step of the machine: the agent whose turn it is moves (`00_scope.md` R15, `20_memory.md` R69). -/

namespace Sys2Proof.Machine

/-- The engine's turn. With a command in flight it works on it: a decoded command runs, an illegal word completes with
`ILLEGAL_CMD` (R185, R186 (1)). With none in flight there is nothing to do. -/
def engineStep (s : State) : Host.Outcome State Fault Refusal :=
  if s.status.busy then
    match fetch s with
    | .ok i => exec i s
    | .error e => .next (illegalWord e s)
  else .next s

/-- One agent's turn. -/
def takeTurn (t : Turn) (s : State) : Host.Outcome State Fault Refusal :=
  match t with
  | .engine => engineStep s
  | .hostRead widx => .next (hostRead widx s)
  | .hostWrite widx d => .next (memWrite widx d s)
  | .answer v => .next (takeAnswer v s)
  | .lateAnswer _ => .next s
  | .hardReset => .next (resetCore s)

/-- One step. The first of the turns to come is taken; with none to come the engine goes on with the command in flight,
and an idle CORE waits for the host (R233, R243; log entry 3). -/
def step (s : State) : Host.Outcome State Fault Refusal :=
  match s.pending with
  | [] => engineStep s
  | t :: rest => takeTurn t { s with pending := rest }

/-- The state with a command word issued (R185) so that the very next step runs it (log entry 4): the latch holds the
word, `STATUS` is as the issue leaves it, and where other turns are to come the engine's comes first. -/
def State.withFetchWord (s : State) (nbits w : Nat) : State :=
  { issue (BitVec.ofNat 32 (w % 2 ^ nbits)) s with
    pending := if s.pending = [] then [] else Turn.engine :: s.pending }

end Sys2Proof.Machine
end

