-- ==== Sys2Proof/Safety.lean ====
section
/-! DEFINITION. The terms the claims use: the invariant of CORE's state, the three endings of a command written out
field by field, and what "changes nothing else" means. None of these is used by the machine. -/

namespace Sys2Proof.Machine

/-! ### The invariant -/

/-- Every valid register holds a value of magnitude at most `2^W - 1` (R20, R189). -/
def State.RegsInRange (s : State) : Prop :=
  ∀ r, s.isValid r = true → (s.reg r).natAbs < 2 ^ s.params.W

/-- The `STATUS` bits that exclude each other (R34, R185, R205, R208). -/
structure State.StatusOk (s : State) : Prop where
  busy_not_fault : s.status.busy = true → s.status.fault = false
  busy_not_done : s.status.busy = true → s.status.done = false
  busy_not_err : s.status.busy = true → s.status.err = false
  fault_not_done : s.status.fault = true → s.status.done = false
  fault_not_err : s.status.fault = true → s.status.err = false

/-- `FAULTCODE` and `FAULTCMD` are 0 without a fault; with one, the code is one of the eight and the command recorded
is the one last accepted (R37, R38, R202, R205). -/
structure State.FaultRegsOk (s : State) : Prop where
  clear : s.status.fault = false → s.faultcode = 0 ∧ s.faultcmd = 0
  latched : s.status.fault = true → 1 ≤ s.faultcode.toNat ∧ s.faultcode.toNat ≤ 8 ∧ s.faultcmd = s.cmd

/-- At most one of `LT`, `EQ`, `GT` is set, and `JAC` is never `10` (R27). -/
structure State.FlagsOk (s : State) : Prop where
  compare : (s.flags.lt, s.flags.eq, s.flags.gt) ∈
    [(false, false, false), (true, false, false), (false, true, false), (false, false, true)]
  jac : s.flags.jac ≠ 0b10

/-- The random-source channel is quiet while no command is in flight, and a request carries `lo <= hi`, both in
`[0, 2^W - 1]` (R49, R50, R52). -/
structure State.ChannelOk (s : State) : Prop where
  quiet : s.status.busy = false → s.drawReq = none ∧ s.draws = []
  request : ∀ q, s.drawReq = some q → 0 ≤ q.lo ∧ q.lo ≤ q.hi ∧ q.hi < (2 : Int) ^ s.params.W

/-- The invariant of CORE's state. `RESULT` holds one of the three codes of R201, and `ROUNDS` is at most 65535 (R40). -/
structure State.Inv (s : State) : Prop where
  regs : s.RegsInRange
  status : s.StatusOk
  faultRegs : s.FaultRegsOk
  flags : s.FlagsOk
  channel : s.ChannelOk
  result : s.result.toNat ≤ 2
  rounds : s.rounds.toNat ≤ 65535

/-! ### The three endings of a command, field by field -/

/-- What every OK completion does besides the command's own writes (R185 (a)). -/
def endedOk (s : State) : State :=
  { s with
    result := 0
    status := { s.status with busy := false, done := true }
    cmdcnt := s.cmdcnt + 1
    drawReq := none
    draws := [] }

/-- A recoverable completion with this `RESULT` code: nothing else changes (R185 (b), R203). -/
def endedRecoverable (code : BitVec 8) (s : State) : State :=
  { s with
    result := code
    status := { s.status with busy := false, done := true, err := true }
    cmdcnt := s.cmdcnt + 1
    drawReq := none
    draws := [] }

/-- A fatal completion with this `FAULTCODE`: nothing else changes (R185 (c), R204). -/
def endedFatal (code : BitVec 8) (s : State) : State :=
  { s with
    status := { s.status with busy := false, fault := true }
    faultcode := code
    faultcmd := s.cmd
    drawReq := none
    draws := [] }

/-- The flags with `Z`, `N`, `ODD` of `v` (R28, R191). -/
def znoOf (f : Flags) (v : Int) : Flags :=
  { f with z := decide (v = 0), n := decide (v < 0), odd := decide (v % 2 = 1) }

/-- Register `rd` became valid with value `v`, and no other register changed. -/
def OnlyReg (rd : Reg) (v : Int) (s t : State) : Prop :=
  t.isValid rd = true ∧ t.reg rd = v ∧ ∀ r, r ≠ rd → t.isValid r = s.isValid r ∧ t.reg r = s.reg r

/-- An OK completion from `s` to `t` whose own writes are: `v` into `rd`, and the flags become `f`. Every other register
and every other field of the state is as `endedOk` leaves it. -/
def WroteReg (rd : Reg) (v : Int) (f : Flags) (s t : State) : Prop :=
  t = { endedOk s with x := t.x, valid := t.valid, flags := f } ∧ OnlyReg rd v s t

/-- `WroteReg` with the flags `Z`, `N`, `ODD` of the value written. -/
def WroteResult (rd : Reg) (v : Int) (s t : State) : Prop := WroteReg rd v (znoOf s.flags v) s t

/-- An OK completion whose own writes are the gcd, and the two Bézout coefficients, into three different registers, and
`Z`, `N`, `ODD` of the gcd. -/
def WroteBezout (rd rx ry : Reg) (g cx cy : Int) (s t : State) : Prop :=
  t = { endedOk s with x := t.x, valid := t.valid, flags := znoOf s.flags g } ∧
  (t.isValid rd = true ∧ t.reg rd = g) ∧ (t.isValid rx = true ∧ t.reg rx = cx) ∧ (t.isValid ry = true ∧ t.reg ry = cy) ∧
  ∀ r, r ≠ rd → r ≠ rx → r ≠ ry → t.isValid r = s.isValid r ∧ t.reg r = s.reg r

/-- The symbol as the 2-bit number of `FLAGS.JAC` (R27). -/
def jacBits (j : Int) : BitVec 2 := BitVec.ofInt 2 j

/-! ### Euclid, division, exponentiation and primality in plain mathematics -/

/-- The algorithm of R143 on `a, b >= 0` returns the row `(g, x, y)`: a guard case returns a seed row; else there are rows
`r`, `cx`, `cy` with quotients `q`, seeded as the rule seeds them, each made from the two before it, of which row `m + 2`
is the first with remainder 0, and row `m + 1` is returned. -/
def EuclidReturns (a b g x y : Int) : Prop :=
  (a = 0 ∧ g = b ∧ x = 0 ∧ y = 1) ∨ (a ≠ 0 ∧ b = 0 ∧ g = a ∧ x = 1 ∧ y = 0) ∨
  (a ≠ 0 ∧ b ≠ 0 ∧ ∃ (m : Nat) (r q cx cy : Nat → Int),
    (r 0 = a ∧ cx 0 = 1 ∧ cy 0 = 0) ∧ (r 1 = b ∧ cx 1 = 0 ∧ cy 1 = 1) ∧
    (∀ i ≤ m, q (i + 2) = r i / r (i + 1) ∧ r (i + 2) = r i - q (i + 2) * r (i + 1)) ∧
    (∀ i < m, r (i + 2) ≠ 0 ∧ cx (i + 2) = cx i - q (i + 2) * cx (i + 1) ∧
      cy (i + 2) = cy i - q (i + 2) * cy (i + 1)) ∧
    r (m + 2) = 0 ∧ g = r (m + 1) ∧ x = cx (m + 1) ∧ y = cy (m + 1))

/-- The fifteen primes of the table, as R162 lists them. -/
def tablePrimes : List Nat := [2, 3, 5, 7, 11, 13, 17, 19, 23, 29, 31, 37, 41, 43, 47]

/-- The table prime `p` rejects `v`: it divides it and is not equal to it (R163). -/
def Rejects (p : Nat) (v : Int) : Prop := (p : Int) ∣ v ∧ v ≠ p

/-- `p` is the smallest table prime that rejects `v` (R163). -/
def FirstReject (p : Nat) (v : Int) : Prop :=
  p ∈ tablePrimes ∧ Rejects p v ∧ ∀ q ∈ tablePrimes, q < p → ¬Rejects q v

/-- No table prime rejects `v`. -/
def PassesFilter (v : Int) : Prop := ∀ p ∈ tablePrimes, ¬Rejects p v

/-- One Solovay–Strassen round passes: the witness is coprime to `n`, and its Jacobi symbol, taken as a residue, is its
`(n - 1) / 2`-th power modulo `n`; the symbol is Mathlib's (R152, R173). -/
def RoundPasses (n a : Nat) : Prop :=
  Nat.gcd a n = 1 ∧
  (if jacobiSym (a : Int) n = -1 then (n : Int) - 1 else jacobiSym (a : Int) n) = ((a ^ ((n - 1) / 2) % n : Nat) : Int)

/-- The number is one the test draws witnesses for: odd and at least 3 (R174). -/
def NeedsRounds (n : Int) : Prop := 3 ≤ n ∧ n % 2 = 1

/-- An answer inside the requested range `[2, n - 1]` (R174). -/
def InRange (n : Int) (a : Nat) : Prop := 2 ≤ a ∧ (a : Int) ≤ n - 1

/-- The first `j` answers are all there, in range, and their rounds pass. -/
def PassedFirst (n : Int) (ds : List Nat) (j : Nat) : Prop :=
  ∀ i < j, ∃ a, ds[i]? = some a ∧ InRange n a ∧ RoundPasses n.toNat a

/-- The verdict `b` after `r` evaluated rounds, of the test of `n` with `k` rounds asked for and answers `ds` (R174,
R175): the three preconditions, all rounds passed, or a first failing round. -/
def TestVerdict (n : Int) (k : Nat) (ds : List Nat) (b : Bool) (r : Nat) : Prop :=
  (n < 2 ∧ b = false ∧ r = 0) ∨ (n = 2 ∧ b = true ∧ r = 0) ∨ (2 < n ∧ n % 2 = 0 ∧ b = false ∧ r = 0) ∨
  (NeedsRounds n ∧ PassedFirst n ds k ∧ b = true ∧ r = k) ∨
  (NeedsRounds n ∧ ∃ j < k, PassedFirst n ds j ∧
    (∃ a, ds[j]? = some a ∧ InRange n a ∧ ¬RoundPasses n.toNat a) ∧ b = false ∧ r = j + 1)

/-- The test needs another answer: every answer it has got passed its round, and fewer than `k` rounds are done. -/
def TestWaits (n : Int) (k : Nat) (ds : List Nat) : Prop :=
  NeedsRounds n ∧ ds.length < k ∧ PassedFirst n ds ds.length

/-- The test meets an answer outside `[2, n - 1]` (R50, R171). -/
def TestBadAnswer (n : Int) (k : Nat) (ds : List Nat) : Prop :=
  NeedsRounds n ∧ ∃ j < k, PassedFirst n ds j ∧ ∃ a, ds[j]? = some a ∧ ¬InRange n a

/-! ### Which outcomes a command may have (R201, R202) -/

/-- The `FAULTCODE` values the table of R202 lets a legal command raise. -/
def mayRaise : Instr → List (BitVec 8)
  | .nop => []
  | .add _ _ _ => [2, 5]
  | .sub _ _ _ => [2, 5]
  | .addi _ _ _ => [2, 5]
  | .ldi _ _ => []
  | .mov _ _ => [2]
  | .cmp _ _ => [2]
  | .cmpi _ _ => [2]
  | .tst _ => [2]
  | .mul _ _ _ => [2, 5]
  | .mulmod _ _ _ _ => [2, 3]
  | .montmul _ _ _ _ => [2, 3, 7]
  | .montr2 _ _ => [2, 3]
  | .modexp _ _ _ _ => [2, 3, 4]
  | .crypt _ _ _ _ => [2, 3, 4]
  | .gcd _ _ _ => [2, 6]
  | .xgcd _ _ _ _ _ => [2, 6]
  | .modinv _ _ _ => [2, 3, 6]
  | .jacobi _ _ _ => [2, 7]
  | .jacobir _ _ _ => [2, 7]
  | .tdiv _ _ => [2, 7]
  | .tfilt _ => [2]
  | .ssround _ _ => [2, 7]
  | .ptest _ _ => [2, 8]
  | .pcand _ _ => [2, 8]

/-- The `RESULT` values other than OK that the table of R201 lets a command return. -/
def mayReturn : Instr → List (BitVec 8)
  | .modinv _ _ _ => [1]
  | .crypt _ _ _ _ => [2]
  | .nop => []
  | .add _ _ _ => []
  | .sub _ _ _ => []
  | .addi _ _ _ => []
  | .ldi _ _ => []
  | .mov _ _ => []
  | .cmp _ _ => []
  | .cmpi _ _ => []
  | .tst _ => []
  | .mul _ _ _ => []
  | .mulmod _ _ _ _ => []
  | .montmul _ _ _ _ => []
  | .montr2 _ _ => []
  | .modexp _ _ _ _ => []
  | .gcd _ _ _ => []
  | .xgcd _ _ _ _ _ => []
  | .jacobi _ _ _ => []
  | .jacobir _ _ _ => []
  | .tdiv _ _ => []
  | .tfilt _ => []
  | .ssround _ _ => []
  | .ptest _ _ => []
  | .pcand _ _ => []

/-- The commands that draw (R50). -/
def isDrawing : Instr → Bool
  | .ptest _ _ => true
  | .pcand _ _ => true
  | .nop => false
  | .add _ _ _ => false
  | .sub _ _ _ => false
  | .addi _ _ _ => false
  | .ldi _ _ => false
  | .mov _ _ => false
  | .cmp _ _ => false
  | .cmpi _ _ => false
  | .tst _ => false
  | .mul _ _ _ => false
  | .mulmod _ _ _ _ => false
  | .montmul _ _ _ _ => false
  | .montr2 _ _ => false
  | .modexp _ _ _ _ => false
  | .crypt _ _ _ _ => false
  | .gcd _ _ _ => false
  | .xgcd _ _ _ _ _ => false
  | .modinv _ _ _ => false
  | .jacobi _ _ _ => false
  | .jacobir _ _ _ => false
  | .tdiv _ _ => false
  | .tfilt _ => false
  | .ssround _ _ => false

/-! ### The host port -/

/-- The step in which `u` is the next turn and the turns of `s` come after it. -/
def turn (u : Turn) (s : State) : Host.Outcome State Fault Refusal := step { s with pending := u :: s.pending }

/-- A limb of the window (offsets `0x800 + 4k`, `k < NLIMBS`). -/
def isLimb (p : Params) (widx : WordIdx) : Bool := decide (512 ≤ widx.toNat) && decide (widx.toNat < 512 + p.nlimbs)

/-- A reserved offset (R48): `0x07C` to `0x7FC`, and from `0x800 + 4 * NLIMBS` on. -/
def isReserved (p : Params) (widx : WordIdx) : Bool :=
  (decide (31 ≤ widx.toNat) && decide (widx.toNat < 512)) || decide (512 + p.nlimbs ≤ widx.toNat)

/-- A read that returns an unspecified word: `RSIGN` or `LIMB[k]` while busy or of an invalid register (R65 (d), (e)). -/
def isForbiddenRead (s : State) (widx : WordIdx) : Bool :=
  (widx == 15 || isLimb s.params widx) && (s.status.busy || !s.isValid s.rsel)

/-- A write that is a host error: R65 (a), (b), (c), (f), (g). -/
def isForbiddenWrite (s : State) (widx : WordIdx) : Bool :=
  (widx == 4 && (s.status.busy || s.status.fault)) ||
  ((widx == 11 || widx == 14 || widx == 15 || isLimb s.params widx) && s.status.busy) ||
  [0, 1, 5, 6, 7, 8, 9, 10, 12, 13].contains widx || (decide (16 ≤ widx.toNat) && decide (widx.toNat ≤ 30)) ||
  isReserved s.params widx

/-- A host error on a write (R65): `HERR` is set and nothing else changes. -/
def withHerr (s : State) : State := { s with status := { s.status with herr := true } }

/-- The value the window shows or starts from (R45, R46): the selected register, or 0 while it is invalid. -/
def selected (s : State) : Int := if s.isValid s.rsel then s.reg s.rsel else 0

/-- The 32-bit digit `k` of a magnitude. -/
def digit (m k : Nat) : Nat := m / 2 ^ (32 * k) % 2 ^ 32

/-- The state R52 describes, for an instance of CORE that keeps its width. -/
def AtReset (s : State) : Prop :=
  (∀ r, s.isValid r = false) ∧ s.ctrl.toWord = 0 ∧ s.status.toWord = 0 ∧ s.cmd = 0 ∧ s.result = 0 ∧ s.faultcode = 0 ∧
  s.faultcmd = 0 ∧ s.flags.toWord = 0 ∧ s.valid = 0 ∧ s.rounds = 0 ∧ s.attempts = 0 ∧ s.tdhit = 0 ∧ s.cmdcnt = 0 ∧
  s.rsel = 0 ∧ s.drawReq = none ∧ s.draws = [] ∧ s.irq = false

/-! ### Comparing runs -/

/-- Two states that differ at most in the contents of registers that are not valid (R21). -/
def SameButInvalid (s t : State) : Prop :=
  s = { t with x := s.x } ∧ ∀ r, s.isValid r = true → s.reg r = t.reg r

/-- A turn that resets CORE: the reset input, or a host write of `CTRL` (offset `0x008`) with `SRST` set (R230, R232). -/
def Turn.resets : Turn → Bool
  | .hardReset => true
  | .hostWrite widx d => widx == 2 && d.getLsbD 31
  | .engine => false
  | .hostRead _ => false
  | .answer _ => false
  | .lateAnswer _ => false

/-- The next turn is not one that resets CORE. -/
def State.NoReset (s : State) : Prop := ∀ u ∈ s.pending.head?, u.resets = false

end Sys2Proof.Machine
end

