-- ==== Sys2Proof/Certificates/Slice0/Obligations.lean ====
section
/-! DEFINITION. The statements about the model, for the provers. Each docstring names the rules of spec/ it
formalises. A statement about a command says, for every operand and every state, which word encodes it, where it faults
and with which code, and the whole next state: what it writes, and that nothing else changes. -/

open Sys2Proof Sys2Proof.Machine

/-! ## Encoding -/

/-- A few words of the spec decode to the commands the spec says they are: R89's five examples and one word or more of
every family. -/
def Obligations.SpecExampleWordsDecode : Prop :=
  decode 0x01201000 = .ok (.add 2 0 1) ∧ decode 0x0330FFFF = .ok (.addi 3 0 0xFFFF) ∧
  decode 0x21401056 = .ok (.xgcd 4 5 6 0 1) ∧ decode 0x22760500 = .ok (.modinv 7 6 5) ∧
  decode 0x39040005 = .ok (.ptest 4 5) ∧ decode 0x00000000 = .ok .nop ∧ decode 0x08001000 = .ok (.cmp 0 1) ∧
  decode 0x11301200 = .ok (.mulmod 3 0 1 2) ∧ decode 0x19301200 = .ok (.crypt 3 0 1 2) ∧
  decode 0x28200100 = .ok (.jacobi 2 0 1) ∧ decode 0x30000035 = .ok (.tdiv 0 53) ∧
  decode 0x00000001 = .error .nonZeroField ∧ decode 0x06000000 = .error .undefinedOpcode ∧
  decode 0x21201024 = .error .coincidingDestinations

/-- Decoding the word of any well-formed command gives the command back: no operand bit is dropped (R81 to R85, R88). -/
def Obligations.DecodeOfEncodeIsIdentity : Prop :=
  ∀ i : Instr, wellFormed i = true → decode (encode i) = .ok i

/-- A word that decodes is the word of the command it decodes to, which is well-formed: each command has one word (R86,
R88). -/
def Obligations.DecodedWordIsItsEncoding : Prop :=
  ∀ (w : Word) (i : Instr), decode w = .ok i → encode i = w ∧ wellFormed i = true

/-- `match` and `mask` of every row of spec/opcode_table.json. -/
def matchMask : List (Word × Word) :=
  [(0x00000000, 0xFFFFFFFF), (0x01000000, 0xFF000FFF), (0x02000000, 0xFF000FFF), (0x03000000, 0xFF000000),
   (0x04000000, 0xFF0F0000), (0x05000000, 0xFF00FFFF), (0x08000000, 0xFFF00FFF), (0x09000000, 0xFFF00000),
   (0x0A000000, 0xFFF0FFFF), (0x10000000, 0xFF000FFF), (0x11000000, 0xFF0000FF), (0x12000000, 0xFF0000FF),
   (0x13000000, 0xFF0FF0FF), (0x18000000, 0xFF0000FF), (0x19000000, 0xFF0000FF), (0x20000000, 0xFF000FFF),
   (0x21000000, 0xFF000F00), (0x22000000, 0xFF00F0FF), (0x28000000, 0xFF00F0FF), (0x29000000, 0xFF00F0FF),
   (0x30000000, 0xFFF00000), (0x31000000, 0xFFF0FFFF), (0x38000000, 0xFFF00FFF), (0x39000000, 0xFFF00000),
   (0x3A000000, 0xFFF00000)]

/-- The illegal words are exactly those that match no row of the opcode map, and the XGCD words whose destination fields
are not pairwise different; every other word is a command (R86, R87, R88). -/
def Obligations.IllegalWordsAreExactlyTheSpecs : Prop :=
  ∀ w : Word, (∃ e, decode w = .error e) ↔
    ((∀ p ∈ matchMask, w &&& p.2 ≠ p.1) ∨
     (w &&& 0xFF000F00 = 0x21000000 ∧
      (w.extractLsb' 20 4 = w.extractLsb' 4 4 ∨ w.extractLsb' 20 4 = w.extractLsb' 0 4 ∨
       w.extractLsb' 4 4 = w.extractLsb' 0 4)))

/-! ## The life of a command -/

/-- A host write of `CMD` (offset `0x010`) issues the word when the engine is idle and not faulted, changing nothing but
the latch and three `STATUS` bits; else it is a host error and changes only `HERR` (R185, issue). -/
def Obligations.HostWriteOfCmdIssues : Prop :=
  ∀ (s : State) (w : Word), turn (.hostWrite 4 w) s = .next (
    if s.status.busy || s.status.fault then withHerr s
    else { s with cmd := w, status := { s.status with busy := true, done := false, err := false } })

/-- A step runs the decoded command: on the engine's turn, and when no turn is to come, with a command in flight that
decodes, the step is `exec` of it on the state; nothing is added around it. The order of the agents' turns is the
model's (log entry 3). -/
def Obligations.EngineRunsTheDecodedCommand : Prop :=
  ∀ (s : State) (i : Instr), s.status.busy = true → decode s.cmd = .ok i →
    turn .engine s = exec i s ∧ (s.pending = [] → step s = exec i s)

/-- An illegal word in flight completes with the fatal fault `ILLEGAL_CMD`, changing no register, flag or counter. -/
def Obligations.IllegalWordFaults : Prop :=
  ∀ (s : State) (e : Illegal), s.status.busy = true → decode s.cmd = .error e →
    turn .engine s = .next (endedFatal 1 s)

/-- Every command, on every operand and in every state, answers a next state, in one of the ways R185 lists: OK (only
the register file, the flags and the unit counters may differ from the plain completion), recoverable, fatal with one of
the eight codes, or, for the two drawing commands alone, still busy with a draw requested (R185, R200, R203, R204, R240). -/
def Obligations.CommandEndsInOneOutcome : Prop :=
  ∀ (i : Instr) (s : State), ∃ t, exec i s = .next t ∧
    (t = { endedOk s with x := t.x, valid := t.valid, flags := t.flags, rounds := t.rounds,
                          attempts := t.attempts, tdhit := t.tdhit } ∨
     (∃ c ∈ mayReturn i, t = endedRecoverable c s) ∨
     (∃ c : BitVec 8, 1 ≤ c.toNat ∧ c.toNat ≤ 8 ∧ t = endedFatal c s) ∨
     (isDrawing i = true ∧ t = { s with drawReq := t.drawReq } ∧ t.drawReq.isSome = true))

/-- A legal command raises only the fatal codes the table of R202 lists for it; so, with the registers in range, only
ADD, SUB, ADDI and MUL can overflow (R189, R202). -/
def Obligations.FatalCodesRaisedAsListed : Prop :=
  ∀ (i : Instr) (s t : State), wellFormed i = true → s.RegsInRange → s.status.fault = false →
    exec i s = .next t → t.status.fault = true → t.faultcode ∈ mayRaise i ∧ t = endedFatal t.faultcode s

/-- The model never stops: every step from every state answers a next state. The spec says that every access (R75), every
word (R88) and every command's computation (R194) has an effect. The rest is the model's: nothing is a stop, so that a
command whose draw is not answered, the state U4 calls stuck, steps to itself (log entry 19, DEDUCED), and an idle CORE
with no turn listed steps to itself (log entry 3, DESIGN CHOICE). -/
def Obligations.MachineNeverStops : Prop :=
  ∀ s : State, ∃ t, step s = .next t

/-! ## Invariants and whole-machine rules -/

/-- The state after reset is as R52 lists it, and meets the invariant. -/
def Obligations.ResetStateMeetsInvariant : Prop :=
  AtReset State.reset ∧ State.reset.Inv

/-- Every step from a state that meets the invariant gives a state that meets it: registers in range, `STATUS` bits that
exclude each other, fault registers that agree with `FAULT`, no impossible flag pattern, a quiet channel while idle,
legal result and rounds values (R20, R27, R34, R36, R37, R38, R40, R50). -/
def Obligations.StepKeepsInvariant : Prop :=
  ∀ s t : State, s.Inv → step s = .next t → t.Inv

/-- A reset, by the input or by writing `CTRL` with `SRST` set, from any state (idle, busy or faulted) leaves the state
of R52; a command in flight and an outstanding request are gone (R230, R231, R232). That the width and the turns to come
are kept is the model's (log entry 10). -/
def Obligations.ResetFromAnyState : Prop :=
  ∀ (s : State) (d : Word), d.getLsbD 31 = true →
    ∃ t, turn .hardReset s = .next t ∧ turn (.hostWrite 2 d) s = .next t ∧ AtReset t ∧
      t.params = s.params ∧ t.pending = s.pending

/-- While `FAULT = 1` nothing but a reset clears it, no command is accepted, and the fault registers, the results and the
flags stay (R204, R205). -/
def Obligations.FaultIsLeftOnlyByReset : Prop :=
  ∀ s t : State, s.Inv → s.status.fault = true → s.NoReset → step s = .next t →
    t.status.fault = true ∧ t.status.busy = false ∧ t.faultcode = s.faultcode ∧ t.faultcmd = s.faultcmd ∧
    t.cmd = s.cmd ∧ t.cmdcnt = s.cmdcnt ∧ t.result = s.result ∧ t.flags = s.flags ∧ t.rounds = s.rounds ∧
    t.tdhit = s.tdhit

/-- Nothing but reset clears a valid bit (R21). -/
def Obligations.OnlyResetClearsValidBits : Prop :=
  ∀ (s t : State) (r : Reg), s.NoReset → step s = .next t → s.isValid r = true → t.isValid r = true

/-- The content of an invalid register is unobservable: two states that differ only there take steps to states that
differ only there, whatever agent moves (R21, R188; U1). -/
def Obligations.InvalidContentsUnobservable : Prop :=
  ∀ s s' : State, SameButInvalid s s' → ∃ t t', step s = .next t ∧ step s' = .next t' ∧ SameButInvalid t t'

/-- While a command is in flight no host access but a reset changes a register, a flag, a counter, the command or its
draws: only `CTRL`, `STATUS.DONE`, `STATUS.HERR` and the word read can differ (R63, R65, R237). -/
def Obligations.HostCannotDisturbCommandInFlight : Prop :=
  ∀ (s : State) (widx : WordIdx) (d : Word), s.status.busy = true →
    (∃ t, turn (.hostRead widx) s = .next t ∧
      t = { s with status := { s.status with herr := t.status.herr }, rdata := t.rdata, freeReads := t.freeReads }) ∧
    ((Turn.hostWrite widx d).resets = false → ∃ t, turn (.hostWrite widx d) s = .next t ∧
      t = { s with status := { s.status with done := t.status.done, herr := t.status.herr }, ctrl := t.ctrl })

/-! ## The host port -/

/-- The accesses that are host errors set `HERR` and change nothing else; a reserved read returns 0, a forbidden window
read an unspecified word; every other read leaves CORE's state alone, and no other write sets `HERR` (R65, R67). -/
def Obligations.HostErrorsAndSideEffects : Prop :=
  ∀ (s : State) (widx : WordIdx) (d : Word),
    (∃ t, turn (.hostRead widx) s = .next t ∧
      (if isReserved s.params widx then t = { withHerr s with rdata := 0 }
       else if isForbiddenRead s widx then
        t = { withHerr s with rdata := Config.freeWord s.freeReads, freeReads := s.freeReads + 1 }
       else t = { s with rdata := t.rdata })) ∧
    (∃ t, turn (.hostWrite widx d) s = .next t ∧
      (if isForbiddenWrite s widx then t = withHerr s else t.status.herr = true → s.status.herr = true))

/-- The layout of `FLAGS` (R27), as a read of offset `0x020` shows it; the read changes nothing. -/
def Obligations.FlagsRegisterLayout : Prop :=
  ∀ s : State, ∃ t, turn (.hostRead 8) s = .next t ∧ t = { s with rdata := t.rdata } ∧
    t.rdata.getLsbD 0 = s.flags.z ∧ t.rdata.getLsbD 1 = s.flags.n ∧ t.rdata.getLsbD 2 = s.flags.odd ∧
    t.rdata.getLsbD 3 = s.flags.lt ∧ t.rdata.getLsbD 4 = s.flags.eq ∧ t.rdata.getLsbD 5 = s.flags.gt ∧
    t.rdata.getLsbD 6 = s.flags.div ∧ t.rdata.getLsbD 7 = s.flags.prime ∧ t.rdata.extractLsb' 8 2 = s.flags.jac ∧
    t.rdata.extractLsb' 10 22 = 0

/-- The layout of `STATUS` and its write-one-to-clear bits; a write of `STATUS` is never a host error (R34). -/
def Obligations.StatusRegisterLayoutAndClear : Prop :=
  ∀ (s : State) (d : Word),
    (∃ t, turn (.hostRead 3) s = .next t ∧ t = { s with rdata := t.rdata } ∧
      t.rdata.getLsbD 0 = s.status.busy ∧ t.rdata.getLsbD 1 = s.status.done ∧ t.rdata.getLsbD 2 = s.status.err ∧
      t.rdata.getLsbD 3 = s.status.fault ∧ t.rdata.getLsbD 4 = s.status.herr ∧ t.rdata.extractLsb' 5 27 = 0) ∧
    turn (.hostWrite 3 d) s = .next { s with status := { s.status with
      done := if d.getLsbD 1 then false else s.status.done
      herr := if d.getLsbD 4 then false else s.status.herr } }

/-- `CTRL` takes bits 0 and 1 at any time and reads them back, and the interrupt line is the two enables over `DONE` and
`FAULT` (R33 without `SRST`, R51). -/
def Obligations.CtrlWriteDrivesInterruptLine : Prop :=
  ∀ (s : State) (d : Word), d.getLsbD 31 = false →
    ∃ t, turn (.hostWrite 2 d) s = .next t ∧ t = { s with ctrl := t.ctrl } ∧
      turn (.hostRead 2) t = .next { t with rdata := d &&& 3 } ∧
      t.irq = ((s.status.done && d.getLsbD 0) || (s.status.fault && d.getLsbD 1))

/-- The constants of the map: `ID`, `PARAM` with the instance's `NLIMBS`, and the fifteen entries of `PTAB` (R31, R32,
R47). -/
def Obligations.ConstantRegistersRead : Prop :=
  ∀ s : State,
    turn (.hostRead 0) s = .next { s with rdata := 0x52534301 } ∧
    turn (.hostRead 1) s = .next { s with rdata := BitVec.ofNat 32 (0x0F100000 + s.params.nlimbs) } ∧
    ∀ j : Fin 15, turn (.hostRead (BitVec.ofNat 10 (16 + j))) s =
      .next { s with rdata := BitVec.ofNat 32 (tablePrimes.getD j 0) }

/-- The control, status, fault and counter registers and the selector, as the map's other offsets show them, busy or not;
a read changes nothing (R33, R35 to R44, R63, R75). `CTRL` shows its two enables, and `SRST` reads 0. -/
def Obligations.StatusAndCounterRegistersRead : Prop :=
  ∀ s : State,
    (∀ p ∈ ([(4, s.cmd), (5, s.result.setWidth 32), (6, s.faultcode.setWidth 32), (7, s.faultcmd),
        (9, s.valid.setWidth 32), (10, s.rounds), (11, s.attempts), (12, s.tdhit.setWidth 32), (13, s.cmdcnt),
        (14, s.rsel.setWidth 32)] : List (WordIdx × Word)),
      turn (.hostRead p.1) s = .next { s with rdata := p.2 }) ∧
    ∃ t, turn (.hostRead 2) s = .next t ∧ t = { s with rdata := t.rdata } ∧
      t.rdata.getLsbD 0 = s.ctrl.ieDone ∧ t.rdata.getLsbD 1 = s.ctrl.ieFault ∧ t.rdata.extractLsb' 2 30 = 0

/-- `ATTEMPTS` takes any word, and `RSEL` the low four bits of the word written, while no command is in flight; nothing
else changes (R41, R44). -/
def Obligations.AttemptsAndSelectorWrites : Prop :=
  ∀ (s : State) (d : Word), s.status.busy = false →
    turn (.hostWrite 11 d) s = .next { s with attempts := d } ∧
    ∃ t, turn (.hostWrite 14 d) s = .next t ∧ t = { s with rsel := t.rsel } ∧ t.rsel.toNat = d.toNat % 16

/-- The window shows a valid register as a sign and 32-bit limbs, least significant first, and the limbs are the whole
magnitude (R23, R45, R46, R61). -/
def Obligations.WindowShowsSignAndLimbs : Prop :=
  ∀ s : State, s.RegsInRange → s.status.busy = false → s.isValid s.rsel = true →
    (turn (.hostRead 15) s = .next { s with rdata := if s.reg s.rsel < 0 then 1 else 0 }) ∧
    (∀ k < s.params.nlimbs, turn (.hostRead (BitVec.ofNat 10 (512 + k))) s =
      .next { s with rdata := BitVec.ofNat 32 (digit (s.reg s.rsel).natAbs k) }) ∧
    (s.reg s.rsel).natAbs = ∑ k ∈ Finset.range s.params.nlimbs, digit (s.reg s.rsel).natAbs k * 2 ^ (32 * k)

/-- A write of `LIMB[k]` while idle replaces limb k, keeps every other limb and the sign (a zero magnitude has none), starts
from zero in an invalid register, makes the register valid, and changes nothing else (R46). -/
def Obligations.LimbWriteReplacesOneLimb : Prop :=
  ∀ (s : State) (k : Nat) (d : Word), s.RegsInRange → s.status.busy = false → k < s.params.nlimbs →
    ∃ t, turn (.hostWrite (BitVec.ofNat 10 (512 + k)) d) s = .next t ∧
      t = { s with x := t.x, valid := t.valid } ∧ OnlyReg s.rsel (t.reg s.rsel) s t ∧
      (∀ j, digit (t.reg s.rsel).natAbs j = if j = k then d.toNat else digit (selected s).natAbs j) ∧
      (t.reg s.rsel < 0 ↔ selected s < 0 ∧ t.reg s.rsel ≠ 0) ∧
      (t.reg s.rsel).natAbs < 2 ^ s.params.W

/-- A write of `RSIGN` while idle gives the register the magnitude it had and the sign of bit 0 (R45). -/
def Obligations.SignWriteKeepsMagnitude : Prop :=
  ∀ (s : State) (d : Word), s.status.busy = false →
    ∃ t, turn (.hostWrite 15 d) s = .next t ∧ t = { s with x := t.x, valid := t.valid } ∧
      OnlyReg s.rsel (if d.getLsbD 0 then -|selected s| else |selected s|) s t

/-- The random source's response is taken only while a request is outstanding, and then closes it; otherwise, and for a
request a reset withdrew, it is ignored (R50, R231). -/
def Obligations.AnswerIsTakenOnlyWhenRequested : Prop :=
  ∀ (s : State) (v : Nat),
    turn (.answer v) s = .next (if s.drawReq = none then s else { s with drawReq := none, draws := s.draws ++ [v] }) ∧
    turn (.lateAnswer v) s = .next s

/-- A drawing command that waits stays as it is, busy, whenever the engine has its turn again without an answer (R194,
R240). -/
def Obligations.WaitingCommandHangs : Prop :=
  ∀ (i : Instr) (s t : State), exec i s = .next t → t.status.busy = true →
    isDrawing i = true ∧ exec i t = .next t

/-! ## NOP, bigint_adder, bigint_comparator -/

/-- NOP (R192): nothing but an OK completion, always; its only word is 0, and every other word with its opcode is
illegal. -/
def Obligations.NopOnlyCompletes : Prop :=
  decode 0 = .ok .nop ∧ (∀ w : Word, opcodeOf w = 0 → w ≠ 0 → decode w = .error .nonZeroField) ∧
  ∀ s : State, exec .nop s = .next (endedOk s)

/-- ADD, SUB and MUL (R100, R101, R120): the exact sum, difference and product, or `OVERFLOW`. -/
def Obligations.AddSubMulAreExactOrFault : Prop :=
  ∀ (rd ra rb : Reg) (s : State),
    decode (packR 0x01 rd ra rb 0 0 0) = .ok (.add rd ra rb) ∧
    decode (packR 0x02 rd ra rb 0 0 0) = .ok (.sub rd ra rb) ∧
    decode (packR 0x10 rd ra rb 0 0 0) = .ok (.mul rd ra rb) ∧
    ∀ p ∈ [(exec (.add rd ra rb) s, s.reg ra + s.reg rb), (exec (.sub rd ra rb) s, s.reg ra - s.reg rb),
           (exec (.mul rd ra rb) s, s.reg ra * s.reg rb)],
      ∃ t, p.1 = .next t ∧
        if s.isValid ra && s.isValid rb then
          if 2 ^ s.params.W ≤ p.2.natAbs then t = endedFatal 5 s else WroteResult rd p.2 s t
        else t = endedFatal 2 s

/-- ADDI (R102): the sign-extended immediate is added. -/
def Obligations.AddiAddsSignedImmediate : Prop :=
  ∀ (rd ra : Reg) (imm : Imm16) (s : State), decode (packI 0x03 rd ra imm) = .ok (.addi rd ra imm) ∧
    ∃ t, exec (.addi rd ra imm) s = .next t ∧
      if s.isValid ra then
        if 2 ^ s.params.W ≤ (s.reg ra + imm.toInt).natAbs then t = endedFatal 5 s
        else WroteResult rd (s.reg ra + imm.toInt) s t
      else t = endedFatal 2 s

/-- LDI (R103): always OK, with the zero-extended immediate. -/
def Obligations.LdiLoadsUnsignedImmediate : Prop :=
  ∀ (rd : Reg) (imm : Imm16) (s : State), decode (packI 0x04 rd 0 imm) = .ok (.ldi rd imm) ∧
    ∃ t, exec (.ldi rd imm) s = .next t ∧ WroteResult rd imm.toNat s t

/-- MOV (R104), with the registers in range. -/
def Obligations.MovCopies : Prop :=
  ∀ (rd ra : Reg) (s : State), s.RegsInRange → decode (packR 0x05 rd ra 0 0 0 0) = .ok (.mov rd ra) ∧
    ∃ t, exec (.mov rd ra) s = .next t ∧
      if s.isValid ra then WroteResult rd (s.reg ra) s t else t = endedFatal 2 s

/-- CMP and CMPI (R110, R111): the three-way compare of signed integers into three flags, and nothing else. -/
def Obligations.CompareSetsThreeFlags : Prop :=
  ∀ (ra rb : Reg) (imm : Imm16) (s : State),
    decode (packR 0x08 0 ra rb 0 0 0) = .ok (.cmp ra rb) ∧ decode (packI 0x09 0 ra imm) = .ok (.cmpi ra imm) ∧
    exec (.cmp ra rb) s = .next (
      if s.isValid ra && s.isValid rb then
        { endedOk s with flags := { s.flags with
          lt := decide (s.reg ra < s.reg rb), eq := decide (s.reg ra = s.reg rb), gt := decide (s.reg ra > s.reg rb) } }
      else endedFatal 2 s) ∧
    exec (.cmpi ra imm) s = .next (
      if s.isValid ra then
        { endedOk s with flags := { s.flags with
          lt := decide (s.reg ra < imm.toInt), eq := decide (s.reg ra = imm.toInt), gt := decide (s.reg ra > imm.toInt) } }
      else endedFatal 2 s)

/-- TST (R112). -/
def Obligations.TstSetsSignAndParity : Prop :=
  ∀ (ra : Reg) (s : State), decode (packR 0x0A 0 ra 0 0 0 0) = .ok (.tst ra) ∧
    exec (.tst ra) s = .next (
      if s.isValid ra then { endedOk s with flags := znoOf s.flags (s.reg ra) } else endedFatal 2 s)

/-! ## montgomery_multiplier, modular_exponentiation_engine -/

/-- MULMOD (R121): the non-negative residue of the exact product. -/
def Obligations.MulmodIsProductModulo : Prop :=
  ∀ (rd ra rb rc : Reg) (s : State), s.RegsInRange →
    decode (packR 0x11 rd ra rb rc 0 0) = .ok (.mulmod rd ra rb rc) ∧
    ∃ t, exec (.mulmod rd ra rb rc) s = .next t ∧
      if s.isValid ra && s.isValid rb && s.isValid rc then
        if s.reg rc ≤ 0 then t = endedFatal 3 s
        else WroteResult rd (s.reg ra * s.reg rb % s.reg rc) s t
      else t = endedFatal 2 s

/-- MONTMUL (R122, R124): the product times the one inverse of `2^W` modulo an odd modulus. -/
def Obligations.MontmulIsMontgomeryProduct : Prop :=
  ∀ (rd ra rb rc : Reg) (s : State), s.RegsInRange →
    decode (packR 0x12 rd ra rb rc 0 0) = .ok (.montmul rd ra rb rc) ∧
    ∃ t, exec (.montmul rd ra rb rc) s = .next t ∧
      if s.isValid ra && s.isValid rb && s.isValid rc then
        if s.reg rc ≤ 0 then t = endedFatal 3 s
        else if s.reg rc % 2 = 0 then t = endedFatal 7 s
        else ∃ u : Int, (0 ≤ u ∧ u < s.reg rc ∧ 2 ^ s.params.W * u % s.reg rc = 1 % s.reg rc) ∧
          (∀ u' : Int, 0 ≤ u' → u' < s.reg rc → 2 ^ s.params.W * u' % s.reg rc = 1 % s.reg rc → u' = u) ∧
          WroteResult rd (s.reg ra * s.reg rb * u % s.reg rc) s t
      else t = endedFatal 2 s

/-- MONTR2 (R123): `2^(2W)` modulo any positive modulus. -/
def Obligations.Montr2IsSquaredRadix : Prop :=
  ∀ (rd rc : Reg) (s : State), s.RegsInRange → decode (packR 0x13 rd 0 0 rc 0 0) = .ok (.montr2 rd rc) ∧
    ∃ t, exec (.montr2 rd rc) s = .next t ∧
      if s.isValid rc then
        if s.reg rc ≤ 0 then t = endedFatal 3 s
        else WroteResult rd (2 ^ (2 * s.params.W) % s.reg rc) s t
      else t = endedFatal 2 s

/-- The identities that tie the Montgomery product to the plain modular product (R125). -/
def Obligations.MontgomeryIdentities : Prop :=
  ∀ (p : Params) (m a b : Int), 1 ≤ m → m % 2 = 1 →
    let mm := fun u v : Int => emod (u * v * rinv p m) m
    let r : Int := 2 ^ p.W
    let r2 := emod (r * r) m
    mm a r2 = a * r % m ∧ mm (a * r % m) 1 = a % m ∧ mm (a * r % m) (b * r % m) = a * b * r % m ∧
    mm (mm (mm a r2) (mm b r2)) 1 = a * b % m

/-- MODEXP (R130, R133): the power modulo m, with the checks in their order. -/
def Obligations.ModexpIsPowerModulo : Prop :=
  ∀ (rd ra rb rc : Reg) (s : State), s.RegsInRange →
    decode (packR 0x18 rd ra rb rc 0 0) = .ok (.modexp rd ra rb rc) ∧
    ∃ t, exec (.modexp rd ra rb rc) s = .next t ∧
      if s.isValid ra && s.isValid rb && s.isValid rc then
        if s.reg rc ≤ 0 then t = endedFatal 3 s
        else if s.reg rb < 0 then t = endedFatal 4 s
        else WroteResult rd (s.reg ra ^ (s.reg rb).toNat % s.reg rc) s t
      else t = endedFatal 2 s

/-- CRYPT (R131): the power of a block inside `[0, n - 1]`; a block outside is recoverable, after the fatal checks. -/
def Obligations.CryptTransformsBlocksInRange : Prop :=
  ∀ (rd ra rb rc : Reg) (s : State), s.RegsInRange →
    decode (packR 0x19 rd ra rb rc 0 0) = .ok (.crypt rd ra rb rc) ∧
    ∃ t, exec (.crypt rd ra rb rc) s = .next t ∧
      if s.isValid ra && s.isValid rb && s.isValid rc then
        if s.reg rc ≤ 0 then t = endedFatal 3 s
        else if s.reg rb < 0 then t = endedFatal 4 s
        else if s.reg ra < 0 ∨ s.reg rc ≤ s.reg ra then t = endedRecoverable 2 s
        else WroteResult rd (s.reg ra ^ (s.reg rb).toNat % s.reg rc) s t
      else t = endedFatal 2 s

/-- The round trip (R134 (b)): under the key invariants of R17, CRYPT with e and then CRYPT of the result with d, on the
same n, both end OK, writing their destination and its flags alone, and give the first block back; the first destination
is neither the second key nor the modulus. -/
def Obligations.RsaRoundTrip : Prop :=
  ∀ (p q : Nat) (rv re rk rn rc rd : Reg) (s : State), s.RegsInRange → p.Prime → q.Prime → p ≠ q →
    (s.isValid rv = true ∧ s.isValid re = true ∧ s.isValid rk = true ∧ s.isValid rn = true) →
    s.reg rn = (p : Int) * q → 0 ≤ s.reg re → 0 ≤ s.reg rk →
    s.reg re * s.reg rk % (((p : Int) - 1) * (q - 1)) = 1 % (((p : Int) - 1) * (q - 1)) →
    0 ≤ s.reg rv → s.reg rv < s.reg rn → rc ≠ rk → rc ≠ rn →
    ∃ t u, exec (.crypt rc rv re rn) s = .next t ∧ exec (.crypt rd rc rk rn) t = .next u ∧
      WroteResult rc (s.reg rv ^ (s.reg re).toNat % s.reg rn) s t ∧ WroteResult rd (s.reg rv) t u

/-! ## extended_euclidean_core -/

/-- GCD (R140). -/
def Obligations.GcdIsGreatestCommonDivisor : Prop :=
  ∀ (rd ra rb : Reg) (s : State), s.RegsInRange → decode (packR 0x20 rd ra rb 0 0 0) = .ok (.gcd rd ra rb) ∧
    ∃ t, exec (.gcd rd ra rb) s = .next t ∧
      if s.isValid ra && s.isValid rb then
        if s.reg ra < 0 ∨ s.reg rb < 0 then t = endedFatal 6 s
        else WroteResult rd (Int.gcd (s.reg ra) (s.reg rb)) s t
      else t = endedFatal 2 s

/-- XGCD (R141): with three different destinations, the gcd and the coefficients in the row that the algorithm of R143
returns, which satisfy the Bézout identity exactly; it never overflows (R145). Coinciding destinations have no legal
word. -/
def Obligations.XgcdGivesBezoutCoefficients : Prop :=
  ∀ (rd rx ry ra rb : Reg) (s : State), s.RegsInRange → (rd ≠ rx ∧ rd ≠ ry ∧ rx ≠ ry) →
    decode (packR 0x21 rd ra rb 0 rx ry) = .ok (.xgcd rd rx ry ra rb) ∧
    ∃ t, exec (.xgcd rd rx ry ra rb) s = .next t ∧
      if s.isValid ra && s.isValid rb then
        if s.reg ra < 0 ∨ s.reg rb < 0 then t = endedFatal 6 s
        else ∃ g cx cy, EuclidReturns (s.reg ra) (s.reg rb) g cx cy ∧ g = Int.gcd (s.reg ra) (s.reg rb) ∧
          s.reg ra * cx + s.reg rb * cy = g ∧ WroteBezout rd rx ry g cx cy s t
      else t = endedFatal 2 s

/-- The coefficients are bounded by the operands (R145), the rows of the two guard cases are the seed rows, and the row
returned is the one row that the recurrence of R143 leads to: no other pair of coefficients. -/
def Obligations.BezoutCoefficientsAreBounded : Prop :=
  ∀ a b : Int, 0 ≤ a → 0 ≤ b →
    |(xgcd a b).2.1| ≤ max b 1 ∧ |(xgcd a b).2.2| ≤ max a 1 ∧
    xgcd 0 b = (b, 0, 1) ∧ (0 < a → xgcd a 0 = (a, 1, 0)) ∧
    ∀ g cx cy : Int, EuclidReturns a b g cx cy ↔ xgcd a b = (g, cx, cy)

/-- MODINV (R142): the one inverse in `[0, m - 1]`, or the recoverable NO_INVERSE when the gcd is not 1. -/
def Obligations.ModinvInvertsOrReports : Prop :=
  ∀ (rd ra rc : Reg) (s : State), s.RegsInRange → decode (packR 0x22 rd ra 0 rc 0 0) = .ok (.modinv rd ra rc) ∧
    ∃ t, exec (.modinv rd ra rc) s = .next t ∧
      if s.isValid ra && s.isValid rc then
        if s.reg rc ≤ 0 then t = endedFatal 3 s
        else if s.reg ra < 0 then t = endedFatal 6 s
        else if Int.gcd (s.reg ra) (s.reg rc) ≠ 1 then t = endedRecoverable 1 s
        else ∃ d : Int, 0 ≤ d ∧ d ≤ s.reg rc - 1 ∧ s.reg ra * d % s.reg rc = 1 % s.reg rc ∧ WroteResult rd d s t
      else t = endedFatal 2 s

/-! ## jacobi_symbol_unit -/

/-- JACOBI (R150, R152): the Jacobi symbol, as Mathlib defines it (the product of Legendre symbols), as a signed integer;
`JAC` holds it in two bits. -/
def Obligations.JacobiIsTheJacobiSymbol : Prop :=
  ∀ (rd ra rc : Reg) (s : State), decode (packR 0x28 rd ra 0 rc 0 0) = .ok (.jacobi rd ra rc) ∧
    ∃ t, exec (.jacobi rd ra rc) s = .next t ∧
      if s.isValid ra && s.isValid rc then
        if s.reg rc ≤ 0 ∨ s.reg rc % 2 = 0 then t = endedFatal 7 s
        else
          WroteReg rd (jacobiSym (s.reg ra) (s.reg rc).toNat)
            { znoOf s.flags (jacobiSym (s.reg ra) (s.reg rc).toNat) with
              jac := jacBits (jacobiSym (s.reg ra) (s.reg rc).toNat) } s t
      else t = endedFatal 2 s

/-- JACOBIR (R151, R152): −1 is written as `n - 1`; `JAC` is as after JACOBI. -/
def Obligations.JacobirIsTheSymbolAsResidue : Prop :=
  ∀ (rd ra rc : Reg) (s : State), s.RegsInRange →
    decode (packR 0x29 rd ra 0 rc 0 0) = .ok (.jacobir rd ra rc) ∧
    ∃ t, exec (.jacobir rd ra rc) s = .next t ∧
      if s.isValid ra && s.isValid rc then
        if s.reg rc ≤ 0 ∨ s.reg rc % 2 = 0 then t = endedFatal 7 s
        else ∃ v : Int,
          v = (if jacobiSym (s.reg ra) (s.reg rc).toNat = -1 then s.reg rc - 1
               else jacobiSym (s.reg ra) (s.reg rc).toNat) ∧
          WroteReg rd v { znoOf s.flags v with jac := jacBits (jacobiSym (s.reg ra) (s.reg rc).toNat) } s t
      else t = endedFatal 2 s

/-! ## trial_division_filter -/

/-- TDIV (R160): plain divisibility by a non-zero immediate. -/
def Obligations.TdivTestsDivisibility : Prop :=
  ∀ (ra : Reg) (imm : Imm16) (s : State), decode (packI 0x30 0 ra imm) = .ok (.tdiv ra imm) ∧
    ∃ t, exec (.tdiv ra imm) s = .next t ∧
      if s.isValid ra then
        if imm = 0 then t = endedFatal 7 s
        else
          ((imm.toNat : Int) ∣ s.reg ra → t = { endedOk s with flags := { s.flags with div := true }, tdhit := imm }) ∧
          (¬(imm.toNat : Int) ∣ s.reg ra → t = { endedOk s with flags := { s.flags with div := false }, tdhit := 0 })
      else t = endedFatal 2 s

/-- TFILT (R161, R162, R163): the smallest table prime that divides the candidate and is not equal to it, or none. -/
def Obligations.TfiltReportsSmallestRejectingPrime : Prop :=
  ∀ (ra : Reg) (s : State), decode (packR 0x31 0 ra 0 0 0 0) = .ok (.tfilt ra) ∧
    ∃ t, exec (.tfilt ra) s = .next t ∧
      if s.isValid ra then
        (∃ p, FirstReject p (s.reg ra) ∧
          t = { endedOk s with flags := { s.flags with div := true }, tdhit := BitVec.ofNat 16 p }) ∨
        (PassesFilter (s.reg ra) ∧ t = { endedOk s with flags := { s.flags with div := false }, tdhit := 0 })
      else t = endedFatal 2 s

/-- The filter rejects no prime, and every number at least 2 that it rejects is composite (R164 (a), (b)). -/
def Obligations.FilterRejectsOnlyComposites : Prop :=
  ∀ v : Int, (0 ≤ v → v.toNat.Prime → trialFilter v = 0) ∧
    (trialFilter v ≠ 0 → 2 ≤ v → ∃ d : Nat, 2 ≤ d ∧ (d : Int) < v ∧ (d : Int) ∣ v)

/-! ## primality_test_controller -/

/-- SSROUND (R170, R173): one round with the host's witness; the round is Solovay–Strassen's, in Mathlib's terms. -/
def Obligations.SsroundRunsOneRound : Prop :=
  ∀ (ra rb : Reg) (s : State), decode (packR 0x38 0 ra rb 0 0 0) = .ok (.ssround ra rb) ∧
    ∃ t, exec (.ssround ra rb) s = .next t ∧
      if s.isValid ra && s.isValid rb then
        if s.reg ra < 3 ∨ s.reg ra % 2 = 0 ∨ s.reg rb < 2 ∨ s.reg ra - 1 < s.reg rb then t = endedFatal 7 s
        else ∃ b : Bool, (b = true ↔ RoundPasses (s.reg ra).toNat (s.reg rb).toNat) ∧
          t = { endedOk s with flags := { s.flags with prime := b }, rounds := 1 }
      else t = endedFatal 2 s

/-- PTEST (R171, R174, R175) completes with the verdict of the test on the answers it has got, and writes `PRIME` and
`ROUNDS` alone. -/
def Obligations.PtestCompletesWithVerdict : Prop :=
  ∀ (ra : Reg) (imm : Imm16) (s : State) (b : Bool) (r : Nat), s.isValid ra = true →
    TestVerdict (s.reg ra) imm.toNat s.draws b r →
    exec (.ptest ra imm) s = .next { endedOk s with flags := { s.flags with prime := b }, rounds := BitVec.ofNat 32 r }

/-- PTEST where it does not complete OK (R171, R174, R240): an invalid source and a bad answer are fatal and write
nothing; with an answer missing it requests one from `[2, n - 1]` and stays busy. -/
def Obligations.PtestWaitsOrFaults : Prop :=
  ∀ (ra : Reg) (imm : Imm16) (s : State), decode (packI 0x39 0 ra imm) = .ok (.ptest ra imm) ∧
    (s.isValid ra = false → exec (.ptest ra imm) s = .next (endedFatal 2 s)) ∧
    (s.isValid ra = true → TestBadAnswer (s.reg ra) imm.toNat s.draws →
      exec (.ptest ra imm) s = .next (endedFatal 8 s)) ∧
    (s.isValid ra = true → TestWaits (s.reg ra) imm.toNat s.draws →
      exec (.ptest ra imm) s = .next { s with drawReq := some ⟨2, s.reg ra - 1⟩ })

/-- PCAND (R172, R176) completes: a candidate the filter rejects draws nothing; any other gets the verdict of the test.
`ATTEMPTS` counts one more, modulo 2^32. -/
def Obligations.PcandFiltersThenTests : Prop :=
  ∀ (ra : Reg) (imm : Imm16) (s : State), s.isValid ra = true →
    (∀ p, FirstReject p (s.reg ra) →
      exec (.pcand ra imm) s = .next { endedOk s with
        flags := { s.flags with div := true, prime := false }, tdhit := BitVec.ofNat 16 p, rounds := 0,
        attempts := s.attempts + 1 }) ∧
    (∀ b r, PassesFilter (s.reg ra) → TestVerdict (s.reg ra) imm.toNat s.draws b r →
      exec (.pcand ra imm) s = .next { endedOk s with
        flags := { s.flags with div := false, prime := b }, tdhit := 0, rounds := BitVec.ofNat 32 r,
        attempts := s.attempts + 1 })

/-- PCAND where it does not complete OK (R172): as PTEST, with nothing written, `ATTEMPTS` included. -/
def Obligations.PcandWaitsOrFaults : Prop :=
  ∀ (ra : Reg) (imm : Imm16) (s : State), decode (packI 0x3A 0 ra imm) = .ok (.pcand ra imm) ∧
    (s.isValid ra = false → exec (.pcand ra imm) s = .next (endedFatal 2 s)) ∧
    (s.isValid ra = true → PassesFilter (s.reg ra) → TestBadAnswer (s.reg ra) imm.toNat s.draws →
      exec (.pcand ra imm) s = .next (endedFatal 8 s)) ∧
    (s.isValid ra = true → PassesFilter (s.reg ra) → TestWaits (s.reg ra) imm.toNat s.draws →
      exec (.pcand ra imm) s = .next { s with drawReq := some ⟨2, s.reg ra - 1⟩ })

/-- No false negatives (R177 (a), (b)): for a prime n and every sequence of in-range answers long enough, PTEST and PCAND
end OK with `PRIME = 1`, after all rounds; n = 2 needs no round and no answer, whatever the round count. -/
def Obligations.PrimesPassEveryTest : Prop :=
  ∀ (ra : Reg) (imm : Imm16) (s : State) (n : Nat), s.isValid ra = true → s.reg ra = n → n.Prime →
    (n ≠ 2 → imm.toNat ≤ s.draws.length ∧ ∀ a ∈ s.draws, InRange n a) →
    (∃ t, exec (.ptest ra imm) s = .next t ∧ t.result = 0 ∧ t.flags.prime = true ∧
      t.rounds = (if n = 2 then 0 else BitVec.ofNat 32 imm.toNat)) ∧
    (∃ t, exec (.pcand ra imm) s = .next t ∧ t.result = 0 ∧ t.flags.prime = true ∧ t.flags.div = false)

/-- The witness `n - 1` passes a round for every odd n from 3 on, prime or not (R177 (c)): a false positive is possible. -/
def Obligations.LastWitnessPassesEveryOddNumber : Prop :=
  ∀ (ra rb : Reg) (s : State), s.isValid ra = true → s.isValid rb = true → NeedsRounds (s.reg ra) →
    s.reg rb = s.reg ra - 1 →
    exec (.ssround ra rb) s = .next { endedOk s with flags := { s.flags with prime := true }, rounds := 1 }
end

