-- ==== Sys2Proof/Laws/Arith.lean ====
section
/-! SUPPORT. What the Euclid loop (`44_extended_euclid.md` R143) returns, said once in terms of its rows. -/

namespace Sys2Proof.Machine

/-- Rows `r`, `cx`, `cy` with quotients `q` that follow the recurrence of R143, with row `m + 2` the first of remainder 0:
from any of them on, with fuel for the rows that are left, the loop returns row `m + 1`. -/
theorem xgcdLoop_rows {m : Nat} {r q cx cy : Nat → Int}
    (quot : ∀ i ≤ m, q (i + 2) = r i / r (i + 1) ∧ r (i + 2) = r i - q (i + 2) * r (i + 1))
    (coef : ∀ i < m, r (i + 2) ≠ 0 ∧ cx (i + 2) = cx i - q (i + 2) * cx (i + 1) ∧
      cy (i + 2) = cy i - q (i + 2) * cy (i + 1))
    (last : r (m + 2) = 0) :
    ∀ fuel i, i ≤ m → m - i < fuel →
      xgcdLoop fuel (r i, cx i, cy i) (r (i + 1), cx (i + 1), cy (i + 1)) = (r (m + 1), cx (m + 1), cy (m + 1)) := by
  intro fuel
  induction fuel with
  | zero => intro i _ h; omega
  | succ fuel ih =>
    intro i hi hf
    obtain ⟨hq, hr⟩ := quot i hi
    have hq' : fdiv (r i) (r (i + 1)) = q (i + 2) := hq.symm
    simp only [xgcdLoop, hq', ← hr]
    rcases eq_or_lt_of_le hi with rfl | hlt
    · rw [if_pos last]
    · obtain ⟨h0, hx, hy⟩ := coef i hlt
      rw [if_neg h0, ← hx, ← hy]
      exact ih (i + 1) hlt (by omega)

/-- The remainders of such rows are positive and fall by one or more a row, so there are at most `r 1` of them: the fuel
`xgcd` gives its loop is enough (log entry 18). -/
theorem rows_decrease {m : Nat} {r q : Nat → Int}
    (quot : ∀ i ≤ m, q (i + 2) = r i / r (i + 1) ∧ r (i + 2) = r i - q (i + 2) * r (i + 1))
    (nonzero : ∀ i < m, r (i + 2) ≠ 0) (pos : 0 < r 1) :
    ∀ i ≤ m, 0 < r (i + 1) ∧ r (i + 1) + i ≤ r 1 := by
  intro i
  induction i with
  | zero => intro _; exact ⟨pos, by simp⟩
  | succ i ih =>
    intro hi
    obtain ⟨hp, hb⟩ := ih (by omega)
    obtain ⟨hq, hr⟩ := quot i (by omega)
    have h0 := nonzero i (by omega)
    have e : r (i + 2) = r i % r (i + 1) := by rw [hr, hq, Int.emod_def, mul_comm]
    have := Int.emod_nonneg (r i) hp.ne'
    have := Int.emod_lt_of_pos (r i) hp
    rw [show i + 1 + 1 = i + 2 from rfl]
    push_cast
    constructor <;> omega

end Sys2Proof.Machine
end

