-- ==== Sys2Proof/Laws/Decode.lean ====
section
/-! SUPPORT. The fields of a packed word are the fields it was packed from (`30_encoding.md` R81, R82). -/

namespace Sys2Proof

@[simp] theorem opcodeOf_packR (op : BitVec 8) (rd ra rb rc rx ry : Reg) :
    opcodeOf (packR op rd ra rb rc rx ry) = op := by
  apply BitVec.eq_of_getLsbD_eq
  intro i hi
  simp only [opcodeOf, packR, BitVec.getLsbD_extractLsb', BitVec.getLsbD_append]
  interval_cases i <;> simp

@[simp] theorem regField_packR (op : BitVec 8) (rd ra rb rc rx ry : Reg) (f : FieldName) :
    regField f (packR op rd ra rb rc rx ry) =
      match f with
      | .rd => rd
      | .ra => ra
      | .rb => rb
      | .rc => rc
      | .rx => rx
      | .ry => ry := by
  apply BitVec.eq_of_getLsbD_eq
  intro i hi
  cases f <;>
    simp only [regField, FieldName.low, packR, BitVec.getLsbD_extractLsb', BitVec.getLsbD_append] <;>
    interval_cases i <;> simp

@[simp] theorem opcodeOf_packI (op : BitVec 8) (rd ra : Reg) (imm : Imm16) :
    opcodeOf (packI op rd ra imm) = op := by
  apply BitVec.eq_of_getLsbD_eq
  intro i hi
  simp only [opcodeOf, packI, BitVec.getLsbD_extractLsb', BitVec.getLsbD_append]
  interval_cases i <;> simp

@[simp] theorem regField_rd_packI (op : BitVec 8) (rd ra : Reg) (imm : Imm16) :
    regField .rd (packI op rd ra imm) = rd := by
  apply BitVec.eq_of_getLsbD_eq
  intro i hi
  simp only [regField, FieldName.low, packI, BitVec.getLsbD_extractLsb', BitVec.getLsbD_append]
  interval_cases i <;> simp

@[simp] theorem regField_ra_packI (op : BitVec 8) (rd ra : Reg) (imm : Imm16) :
    regField .ra (packI op rd ra imm) = ra := by
  apply BitVec.eq_of_getLsbD_eq
  intro i hi
  simp only [regField, FieldName.low, packI, BitVec.getLsbD_extractLsb', BitVec.getLsbD_append]
  interval_cases i <;> simp

@[simp] theorem immField_packI (op : BitVec 8) (rd ra : Reg) (imm : Imm16) :
    immField (packI op rd ra imm) = imm := by
  apply BitVec.eq_of_getLsbD_eq
  intro i hi
  simp only [immField, packI, BitVec.getLsbD_extractLsb', BitVec.getLsbD_append]
  interval_cases i <;> simp

/-- Every word is the word of format R of its own fields. -/
theorem packR_fields (w : Word) :
    packR (opcodeOf w) (regField .rd w) (regField .ra w) (regField .rb w) (regField .rc w) (regField .rx w)
      (regField .ry w) = w := by
  apply BitVec.eq_of_getLsbD_eq
  intro i hi
  simp only [opcodeOf, regField, FieldName.low, packR, BitVec.getLsbD_extractLsb', BitVec.getLsbD_append]
  interval_cases i <;> simp

/-- Every word is the word of format I of its own fields. -/
theorem packI_fields (w : Word) :
    packI (opcodeOf w) (regField .rd w) (regField .ra w) (immField w) = w := by
  apply BitVec.eq_of_getLsbD_eq
  intro i hi
  simp only [opcodeOf, regField, immField, FieldName.low, packI, BitVec.getLsbD_extractLsb', BitVec.getLsbD_append]
  interval_cases i <;> simp

end Sys2Proof
end

