-- ==== Sys2Proof/Laws/State.lean ====
section
/-! SUPPORT. One lemma per field per update of the state: what each shared operation leaves in each field. -/

namespace Sys2Proof.Machine

@[simp] theorem State.setReg_params (s : State) (r : Reg) (v : Int) : (s.setReg r v).params = s.params := rfl
@[simp] theorem State.setReg_x (s : State) (r : Reg) (v : Int) : (s.setReg r v).x = s.x.set r.toNat v r.isLt := rfl
@[simp] theorem State.setReg_valid (s : State) (r : Reg) (v : Int) : (s.setReg r v).valid = s.valid ||| 1#16 <<< r.toNat := rfl
@[simp] theorem State.setReg_flags (s : State) (r : Reg) (v : Int) : (s.setReg r v).flags = s.flags := rfl
@[simp] theorem State.setReg_status (s : State) (r : Reg) (v : Int) : (s.setReg r v).status = s.status := rfl
@[simp] theorem State.setReg_ctrl (s : State) (r : Reg) (v : Int) : (s.setReg r v).ctrl = s.ctrl := rfl
@[simp] theorem State.setReg_cmd (s : State) (r : Reg) (v : Int) : (s.setReg r v).cmd = s.cmd := rfl
@[simp] theorem State.setReg_result (s : State) (r : Reg) (v : Int) : (s.setReg r v).result = s.result := rfl
@[simp] theorem State.setReg_faultcode (s : State) (r : Reg) (v : Int) : (s.setReg r v).faultcode = s.faultcode := rfl
@[simp] theorem State.setReg_faultcmd (s : State) (r : Reg) (v : Int) : (s.setReg r v).faultcmd = s.faultcmd := rfl
@[simp] theorem State.setReg_rounds (s : State) (r : Reg) (v : Int) : (s.setReg r v).rounds = s.rounds := rfl
@[simp] theorem State.setReg_attempts (s : State) (r : Reg) (v : Int) : (s.setReg r v).attempts = s.attempts := rfl
@[simp] theorem State.setReg_tdhit (s : State) (r : Reg) (v : Int) : (s.setReg r v).tdhit = s.tdhit := rfl
@[simp] theorem State.setReg_cmdcnt (s : State) (r : Reg) (v : Int) : (s.setReg r v).cmdcnt = s.cmdcnt := rfl
@[simp] theorem State.setReg_rsel (s : State) (r : Reg) (v : Int) : (s.setReg r v).rsel = s.rsel := rfl
@[simp] theorem State.setReg_drawReq (s : State) (r : Reg) (v : Int) : (s.setReg r v).drawReq = s.drawReq := rfl
@[simp] theorem State.setReg_draws (s : State) (r : Reg) (v : Int) : (s.setReg r v).draws = s.draws := rfl
@[simp] theorem State.setReg_pending (s : State) (r : Reg) (v : Int) : (s.setReg r v).pending = s.pending := rfl
@[simp] theorem State.setReg_rdata (s : State) (r : Reg) (v : Int) : (s.setReg r v).rdata = s.rdata := rfl
@[simp] theorem State.setReg_freeReads (s : State) (r : Reg) (v : Int) : (s.setReg r v).freeReads = s.freeReads := rfl

@[simp] theorem State.endDraws_params (s : State) : (s.endDraws).params = s.params := rfl
@[simp] theorem State.endDraws_x (s : State) : (s.endDraws).x = s.x := rfl
@[simp] theorem State.endDraws_valid (s : State) : (s.endDraws).valid = s.valid := rfl
@[simp] theorem State.endDraws_flags (s : State) : (s.endDraws).flags = s.flags := rfl
@[simp] theorem State.endDraws_status (s : State) : (s.endDraws).status = s.status := rfl
@[simp] theorem State.endDraws_ctrl (s : State) : (s.endDraws).ctrl = s.ctrl := rfl
@[simp] theorem State.endDraws_cmd (s : State) : (s.endDraws).cmd = s.cmd := rfl
@[simp] theorem State.endDraws_result (s : State) : (s.endDraws).result = s.result := rfl
@[simp] theorem State.endDraws_faultcode (s : State) : (s.endDraws).faultcode = s.faultcode := rfl
@[simp] theorem State.endDraws_faultcmd (s : State) : (s.endDraws).faultcmd = s.faultcmd := rfl
@[simp] theorem State.endDraws_rounds (s : State) : (s.endDraws).rounds = s.rounds := rfl
@[simp] theorem State.endDraws_attempts (s : State) : (s.endDraws).attempts = s.attempts := rfl
@[simp] theorem State.endDraws_tdhit (s : State) : (s.endDraws).tdhit = s.tdhit := rfl
@[simp] theorem State.endDraws_cmdcnt (s : State) : (s.endDraws).cmdcnt = s.cmdcnt := rfl
@[simp] theorem State.endDraws_rsel (s : State) : (s.endDraws).rsel = s.rsel := rfl
@[simp] theorem State.endDraws_drawReq (s : State) : (s.endDraws).drawReq = none := rfl
@[simp] theorem State.endDraws_draws (s : State) : (s.endDraws).draws = [] := rfl
@[simp] theorem State.endDraws_pending (s : State) : (s.endDraws).pending = s.pending := rfl
@[simp] theorem State.endDraws_rdata (s : State) : (s.endDraws).rdata = s.rdata := rfl
@[simp] theorem State.endDraws_freeReads (s : State) : (s.endDraws).freeReads = s.freeReads := rfl

@[simp] theorem completeOk_params (s : State) : (completeOk s).params = s.params := rfl
@[simp] theorem completeOk_x (s : State) : (completeOk s).x = s.x := rfl
@[simp] theorem completeOk_valid (s : State) : (completeOk s).valid = s.valid := rfl
@[simp] theorem completeOk_flags (s : State) : (completeOk s).flags = s.flags := rfl
@[simp] theorem completeOk_status (s : State) : (completeOk s).status = { s.status with busy := false, done := true } := rfl
@[simp] theorem completeOk_ctrl (s : State) : (completeOk s).ctrl = s.ctrl := rfl
@[simp] theorem completeOk_cmd (s : State) : (completeOk s).cmd = s.cmd := rfl
@[simp] theorem completeOk_result (s : State) : (completeOk s).result = 0 := rfl
@[simp] theorem completeOk_faultcode (s : State) : (completeOk s).faultcode = s.faultcode := rfl
@[simp] theorem completeOk_faultcmd (s : State) : (completeOk s).faultcmd = s.faultcmd := rfl
@[simp] theorem completeOk_rounds (s : State) : (completeOk s).rounds = s.rounds := rfl
@[simp] theorem completeOk_attempts (s : State) : (completeOk s).attempts = s.attempts := rfl
@[simp] theorem completeOk_tdhit (s : State) : (completeOk s).tdhit = s.tdhit := rfl
@[simp] theorem completeOk_cmdcnt (s : State) : (completeOk s).cmdcnt = s.cmdcnt + 1 := rfl
@[simp] theorem completeOk_rsel (s : State) : (completeOk s).rsel = s.rsel := rfl
@[simp] theorem completeOk_drawReq (s : State) : (completeOk s).drawReq = none := rfl
@[simp] theorem completeOk_draws (s : State) : (completeOk s).draws = [] := rfl
@[simp] theorem completeOk_pending (s : State) : (completeOk s).pending = s.pending := rfl
@[simp] theorem completeOk_rdata (s : State) : (completeOk s).rdata = s.rdata := rfl
@[simp] theorem completeOk_freeReads (s : State) : (completeOk s).freeReads = s.freeReads := rfl

@[simp] theorem completeRecoverable_params (c : RecoverableCode) (s : State) : (completeRecoverable c s).params = s.params := rfl
@[simp] theorem completeRecoverable_x (c : RecoverableCode) (s : State) : (completeRecoverable c s).x = s.x := rfl
@[simp] theorem completeRecoverable_valid (c : RecoverableCode) (s : State) : (completeRecoverable c s).valid = s.valid := rfl
@[simp] theorem completeRecoverable_flags (c : RecoverableCode) (s : State) : (completeRecoverable c s).flags = s.flags := rfl
@[simp] theorem completeRecoverable_status (c : RecoverableCode) (s : State) : (completeRecoverable c s).status = { s.status with busy := false, done := true, err := true } := rfl
@[simp] theorem completeRecoverable_ctrl (c : RecoverableCode) (s : State) : (completeRecoverable c s).ctrl = s.ctrl := rfl
@[simp] theorem completeRecoverable_cmd (c : RecoverableCode) (s : State) : (completeRecoverable c s).cmd = s.cmd := rfl
@[simp] theorem completeRecoverable_result (c : RecoverableCode) (s : State) : (completeRecoverable c s).result = c.code := rfl
@[simp] theorem completeRecoverable_faultcode (c : RecoverableCode) (s : State) : (completeRecoverable c s).faultcode = s.faultcode := rfl
@[simp] theorem completeRecoverable_faultcmd (c : RecoverableCode) (s : State) : (completeRecoverable c s).faultcmd = s.faultcmd := rfl
@[simp] theorem completeRecoverable_rounds (c : RecoverableCode) (s : State) : (completeRecoverable c s).rounds = s.rounds := rfl
@[simp] theorem completeRecoverable_attempts (c : RecoverableCode) (s : State) : (completeRecoverable c s).attempts = s.attempts := rfl
@[simp] theorem completeRecoverable_tdhit (c : RecoverableCode) (s : State) : (completeRecoverable c s).tdhit = s.tdhit := rfl
@[simp] theorem completeRecoverable_cmdcnt (c : RecoverableCode) (s : State) : (completeRecoverable c s).cmdcnt = s.cmdcnt + 1 := rfl
@[simp] theorem completeRecoverable_rsel (c : RecoverableCode) (s : State) : (completeRecoverable c s).rsel = s.rsel := rfl
@[simp] theorem completeRecoverable_drawReq (c : RecoverableCode) (s : State) : (completeRecoverable c s).drawReq = none := rfl
@[simp] theorem completeRecoverable_draws (c : RecoverableCode) (s : State) : (completeRecoverable c s).draws = [] := rfl
@[simp] theorem completeRecoverable_pending (c : RecoverableCode) (s : State) : (completeRecoverable c s).pending = s.pending := rfl
@[simp] theorem completeRecoverable_rdata (c : RecoverableCode) (s : State) : (completeRecoverable c s).rdata = s.rdata := rfl
@[simp] theorem completeRecoverable_freeReads (c : RecoverableCode) (s : State) : (completeRecoverable c s).freeReads = s.freeReads := rfl

@[simp] theorem completeFatal_params (c : FatalCode) (s : State) : (completeFatal c s).params = s.params := rfl
@[simp] theorem completeFatal_x (c : FatalCode) (s : State) : (completeFatal c s).x = s.x := rfl
@[simp] theorem completeFatal_valid (c : FatalCode) (s : State) : (completeFatal c s).valid = s.valid := rfl
@[simp] theorem completeFatal_flags (c : FatalCode) (s : State) : (completeFatal c s).flags = s.flags := rfl
@[simp] theorem completeFatal_status (c : FatalCode) (s : State) : (completeFatal c s).status = { s.status with busy := false, fault := true } := rfl
@[simp] theorem completeFatal_ctrl (c : FatalCode) (s : State) : (completeFatal c s).ctrl = s.ctrl := rfl
@[simp] theorem completeFatal_cmd (c : FatalCode) (s : State) : (completeFatal c s).cmd = s.cmd := rfl
@[simp] theorem completeFatal_result (c : FatalCode) (s : State) : (completeFatal c s).result = s.result := rfl
@[simp] theorem completeFatal_faultcode (c : FatalCode) (s : State) : (completeFatal c s).faultcode = c.code := rfl
@[simp] theorem completeFatal_faultcmd (c : FatalCode) (s : State) : (completeFatal c s).faultcmd = s.cmd := rfl
@[simp] theorem completeFatal_rounds (c : FatalCode) (s : State) : (completeFatal c s).rounds = s.rounds := rfl
@[simp] theorem completeFatal_attempts (c : FatalCode) (s : State) : (completeFatal c s).attempts = s.attempts := rfl
@[simp] theorem completeFatal_tdhit (c : FatalCode) (s : State) : (completeFatal c s).tdhit = s.tdhit := rfl
@[simp] theorem completeFatal_cmdcnt (c : FatalCode) (s : State) : (completeFatal c s).cmdcnt = s.cmdcnt := rfl
@[simp] theorem completeFatal_rsel (c : FatalCode) (s : State) : (completeFatal c s).rsel = s.rsel := rfl
@[simp] theorem completeFatal_drawReq (c : FatalCode) (s : State) : (completeFatal c s).drawReq = none := rfl
@[simp] theorem completeFatal_draws (c : FatalCode) (s : State) : (completeFatal c s).draws = [] := rfl
@[simp] theorem completeFatal_pending (c : FatalCode) (s : State) : (completeFatal c s).pending = s.pending := rfl
@[simp] theorem completeFatal_rdata (c : FatalCode) (s : State) : (completeFatal c s).rdata = s.rdata := rfl
@[simp] theorem completeFatal_freeReads (c : FatalCode) (s : State) : (completeFatal c s).freeReads = s.freeReads := rfl

@[simp] theorem issue_params (w : Word) (s : State) : (issue w s).params = s.params := rfl
@[simp] theorem issue_x (w : Word) (s : State) : (issue w s).x = s.x := rfl
@[simp] theorem issue_valid (w : Word) (s : State) : (issue w s).valid = s.valid := rfl
@[simp] theorem issue_flags (w : Word) (s : State) : (issue w s).flags = s.flags := rfl
@[simp] theorem issue_status (w : Word) (s : State) : (issue w s).status = { s.status with busy := true, done := false, err := false } := rfl
@[simp] theorem issue_ctrl (w : Word) (s : State) : (issue w s).ctrl = s.ctrl := rfl
@[simp] theorem issue_cmd (w : Word) (s : State) : (issue w s).cmd = w := rfl
@[simp] theorem issue_result (w : Word) (s : State) : (issue w s).result = s.result := rfl
@[simp] theorem issue_faultcode (w : Word) (s : State) : (issue w s).faultcode = s.faultcode := rfl
@[simp] theorem issue_faultcmd (w : Word) (s : State) : (issue w s).faultcmd = s.faultcmd := rfl
@[simp] theorem issue_rounds (w : Word) (s : State) : (issue w s).rounds = s.rounds := rfl
@[simp] theorem issue_attempts (w : Word) (s : State) : (issue w s).attempts = s.attempts := rfl
@[simp] theorem issue_tdhit (w : Word) (s : State) : (issue w s).tdhit = s.tdhit := rfl
@[simp] theorem issue_cmdcnt (w : Word) (s : State) : (issue w s).cmdcnt = s.cmdcnt := rfl
@[simp] theorem issue_rsel (w : Word) (s : State) : (issue w s).rsel = s.rsel := rfl
@[simp] theorem issue_drawReq (w : Word) (s : State) : (issue w s).drawReq = s.drawReq := rfl
@[simp] theorem issue_draws (w : Word) (s : State) : (issue w s).draws = s.draws := rfl
@[simp] theorem issue_pending (w : Word) (s : State) : (issue w s).pending = s.pending := rfl
@[simp] theorem issue_rdata (w : Word) (s : State) : (issue w s).rdata = s.rdata := rfl
@[simp] theorem issue_freeReads (w : Word) (s : State) : (issue w s).freeReads = s.freeReads := rfl

@[simp] theorem hostError_params (s : State) : (hostError s).params = s.params := rfl
@[simp] theorem hostError_x (s : State) : (hostError s).x = s.x := rfl
@[simp] theorem hostError_valid (s : State) : (hostError s).valid = s.valid := rfl
@[simp] theorem hostError_flags (s : State) : (hostError s).flags = s.flags := rfl
@[simp] theorem hostError_status (s : State) : (hostError s).status = { s.status with herr := true } := rfl
@[simp] theorem hostError_ctrl (s : State) : (hostError s).ctrl = s.ctrl := rfl
@[simp] theorem hostError_cmd (s : State) : (hostError s).cmd = s.cmd := rfl
@[simp] theorem hostError_result (s : State) : (hostError s).result = s.result := rfl
@[simp] theorem hostError_faultcode (s : State) : (hostError s).faultcode = s.faultcode := rfl
@[simp] theorem hostError_faultcmd (s : State) : (hostError s).faultcmd = s.faultcmd := rfl
@[simp] theorem hostError_rounds (s : State) : (hostError s).rounds = s.rounds := rfl
@[simp] theorem hostError_attempts (s : State) : (hostError s).attempts = s.attempts := rfl
@[simp] theorem hostError_tdhit (s : State) : (hostError s).tdhit = s.tdhit := rfl
@[simp] theorem hostError_cmdcnt (s : State) : (hostError s).cmdcnt = s.cmdcnt := rfl
@[simp] theorem hostError_rsel (s : State) : (hostError s).rsel = s.rsel := rfl
@[simp] theorem hostError_drawReq (s : State) : (hostError s).drawReq = s.drawReq := rfl
@[simp] theorem hostError_draws (s : State) : (hostError s).draws = s.draws := rfl
@[simp] theorem hostError_pending (s : State) : (hostError s).pending = s.pending := rfl
@[simp] theorem hostError_rdata (s : State) : (hostError s).rdata = s.rdata := rfl
@[simp] theorem hostError_freeReads (s : State) : (hostError s).freeReads = s.freeReads := rfl

@[simp] theorem requestDraw_params (lo hi : Int) (s : State) : (requestDraw lo hi s).params = s.params := rfl
@[simp] theorem requestDraw_x (lo hi : Int) (s : State) : (requestDraw lo hi s).x = s.x := rfl
@[simp] theorem requestDraw_valid (lo hi : Int) (s : State) : (requestDraw lo hi s).valid = s.valid := rfl
@[simp] theorem requestDraw_flags (lo hi : Int) (s : State) : (requestDraw lo hi s).flags = s.flags := rfl
@[simp] theorem requestDraw_status (lo hi : Int) (s : State) : (requestDraw lo hi s).status = s.status := rfl
@[simp] theorem requestDraw_ctrl (lo hi : Int) (s : State) : (requestDraw lo hi s).ctrl = s.ctrl := rfl
@[simp] theorem requestDraw_cmd (lo hi : Int) (s : State) : (requestDraw lo hi s).cmd = s.cmd := rfl
@[simp] theorem requestDraw_result (lo hi : Int) (s : State) : (requestDraw lo hi s).result = s.result := rfl
@[simp] theorem requestDraw_faultcode (lo hi : Int) (s : State) : (requestDraw lo hi s).faultcode = s.faultcode := rfl
@[simp] theorem requestDraw_faultcmd (lo hi : Int) (s : State) : (requestDraw lo hi s).faultcmd = s.faultcmd := rfl
@[simp] theorem requestDraw_rounds (lo hi : Int) (s : State) : (requestDraw lo hi s).rounds = s.rounds := rfl
@[simp] theorem requestDraw_attempts (lo hi : Int) (s : State) : (requestDraw lo hi s).attempts = s.attempts := rfl
@[simp] theorem requestDraw_tdhit (lo hi : Int) (s : State) : (requestDraw lo hi s).tdhit = s.tdhit := rfl
@[simp] theorem requestDraw_cmdcnt (lo hi : Int) (s : State) : (requestDraw lo hi s).cmdcnt = s.cmdcnt := rfl
@[simp] theorem requestDraw_rsel (lo hi : Int) (s : State) : (requestDraw lo hi s).rsel = s.rsel := rfl
@[simp] theorem requestDraw_drawReq (lo hi : Int) (s : State) : (requestDraw lo hi s).drawReq = some ⟨lo, hi⟩ := rfl
@[simp] theorem requestDraw_draws (lo hi : Int) (s : State) : (requestDraw lo hi s).draws = s.draws := rfl
@[simp] theorem requestDraw_pending (lo hi : Int) (s : State) : (requestDraw lo hi s).pending = s.pending := rfl
@[simp] theorem requestDraw_rdata (lo hi : Int) (s : State) : (requestDraw lo hi s).rdata = s.rdata := rfl
@[simp] theorem requestDraw_freeReads (lo hi : Int) (s : State) : (requestDraw lo hi s).freeReads = s.freeReads := rfl

@[simp] theorem State.setHit_params (s : State) (d : Nat) : (s.setHit d).params = s.params := rfl
@[simp] theorem State.setHit_x (s : State) (d : Nat) : (s.setHit d).x = s.x := rfl
@[simp] theorem State.setHit_valid (s : State) (d : Nat) : (s.setHit d).valid = s.valid := rfl
@[simp] theorem State.setHit_flags (s : State) (d : Nat) : (s.setHit d).flags = s.flags.setDiv (decide (d ≠ 0)) := rfl
@[simp] theorem State.setHit_status (s : State) (d : Nat) : (s.setHit d).status = s.status := rfl
@[simp] theorem State.setHit_ctrl (s : State) (d : Nat) : (s.setHit d).ctrl = s.ctrl := rfl
@[simp] theorem State.setHit_cmd (s : State) (d : Nat) : (s.setHit d).cmd = s.cmd := rfl
@[simp] theorem State.setHit_result (s : State) (d : Nat) : (s.setHit d).result = s.result := rfl
@[simp] theorem State.setHit_faultcode (s : State) (d : Nat) : (s.setHit d).faultcode = s.faultcode := rfl
@[simp] theorem State.setHit_faultcmd (s : State) (d : Nat) : (s.setHit d).faultcmd = s.faultcmd := rfl
@[simp] theorem State.setHit_rounds (s : State) (d : Nat) : (s.setHit d).rounds = s.rounds := rfl
@[simp] theorem State.setHit_attempts (s : State) (d : Nat) : (s.setHit d).attempts = s.attempts := rfl
@[simp] theorem State.setHit_tdhit (s : State) (d : Nat) : (s.setHit d).tdhit = BitVec.ofNat 16 d := rfl
@[simp] theorem State.setHit_cmdcnt (s : State) (d : Nat) : (s.setHit d).cmdcnt = s.cmdcnt := rfl
@[simp] theorem State.setHit_rsel (s : State) (d : Nat) : (s.setHit d).rsel = s.rsel := rfl
@[simp] theorem State.setHit_drawReq (s : State) (d : Nat) : (s.setHit d).drawReq = s.drawReq := rfl
@[simp] theorem State.setHit_draws (s : State) (d : Nat) : (s.setHit d).draws = s.draws := rfl
@[simp] theorem State.setHit_pending (s : State) (d : Nat) : (s.setHit d).pending = s.pending := rfl
@[simp] theorem State.setHit_rdata (s : State) (d : Nat) : (s.setHit d).rdata = s.rdata := rfl
@[simp] theorem State.setHit_freeReads (s : State) (d : Nat) : (s.setHit d).freeReads = s.freeReads := rfl

@[simp] theorem State.setVerdict_params (s : State) (b : Bool) (r : Nat) : (s.setVerdict b r).params = s.params := rfl
@[simp] theorem State.setVerdict_x (s : State) (b : Bool) (r : Nat) : (s.setVerdict b r).x = s.x := rfl
@[simp] theorem State.setVerdict_valid (s : State) (b : Bool) (r : Nat) : (s.setVerdict b r).valid = s.valid := rfl
@[simp] theorem State.setVerdict_flags (s : State) (b : Bool) (r : Nat) : (s.setVerdict b r).flags = s.flags.setPrime b := rfl
@[simp] theorem State.setVerdict_status (s : State) (b : Bool) (r : Nat) : (s.setVerdict b r).status = s.status := rfl
@[simp] theorem State.setVerdict_ctrl (s : State) (b : Bool) (r : Nat) : (s.setVerdict b r).ctrl = s.ctrl := rfl
@[simp] theorem State.setVerdict_cmd (s : State) (b : Bool) (r : Nat) : (s.setVerdict b r).cmd = s.cmd := rfl
@[simp] theorem State.setVerdict_result (s : State) (b : Bool) (r : Nat) : (s.setVerdict b r).result = s.result := rfl
@[simp] theorem State.setVerdict_faultcode (s : State) (b : Bool) (r : Nat) : (s.setVerdict b r).faultcode = s.faultcode := rfl
@[simp] theorem State.setVerdict_faultcmd (s : State) (b : Bool) (r : Nat) : (s.setVerdict b r).faultcmd = s.faultcmd := rfl
@[simp] theorem State.setVerdict_rounds (s : State) (b : Bool) (r : Nat) : (s.setVerdict b r).rounds = BitVec.ofNat 32 r := rfl
@[simp] theorem State.setVerdict_attempts (s : State) (b : Bool) (r : Nat) : (s.setVerdict b r).attempts = s.attempts := rfl
@[simp] theorem State.setVerdict_tdhit (s : State) (b : Bool) (r : Nat) : (s.setVerdict b r).tdhit = s.tdhit := rfl
@[simp] theorem State.setVerdict_cmdcnt (s : State) (b : Bool) (r : Nat) : (s.setVerdict b r).cmdcnt = s.cmdcnt := rfl
@[simp] theorem State.setVerdict_rsel (s : State) (b : Bool) (r : Nat) : (s.setVerdict b r).rsel = s.rsel := rfl
@[simp] theorem State.setVerdict_drawReq (s : State) (b : Bool) (r : Nat) : (s.setVerdict b r).drawReq = s.drawReq := rfl
@[simp] theorem State.setVerdict_draws (s : State) (b : Bool) (r : Nat) : (s.setVerdict b r).draws = s.draws := rfl
@[simp] theorem State.setVerdict_pending (s : State) (b : Bool) (r : Nat) : (s.setVerdict b r).pending = s.pending := rfl
@[simp] theorem State.setVerdict_rdata (s : State) (b : Bool) (r : Nat) : (s.setVerdict b r).rdata = s.rdata := rfl
@[simp] theorem State.setVerdict_freeReads (s : State) (b : Bool) (r : Nat) : (s.setVerdict b r).freeReads = s.freeReads := rfl

@[simp] theorem State.countAttempt_params (s : State) : (s.countAttempt).params = s.params := rfl
@[simp] theorem State.countAttempt_x (s : State) : (s.countAttempt).x = s.x := rfl
@[simp] theorem State.countAttempt_valid (s : State) : (s.countAttempt).valid = s.valid := rfl
@[simp] theorem State.countAttempt_flags (s : State) : (s.countAttempt).flags = s.flags := rfl
@[simp] theorem State.countAttempt_status (s : State) : (s.countAttempt).status = s.status := rfl
@[simp] theorem State.countAttempt_ctrl (s : State) : (s.countAttempt).ctrl = s.ctrl := rfl
@[simp] theorem State.countAttempt_cmd (s : State) : (s.countAttempt).cmd = s.cmd := rfl
@[simp] theorem State.countAttempt_result (s : State) : (s.countAttempt).result = s.result := rfl
@[simp] theorem State.countAttempt_faultcode (s : State) : (s.countAttempt).faultcode = s.faultcode := rfl
@[simp] theorem State.countAttempt_faultcmd (s : State) : (s.countAttempt).faultcmd = s.faultcmd := rfl
@[simp] theorem State.countAttempt_rounds (s : State) : (s.countAttempt).rounds = s.rounds := rfl
@[simp] theorem State.countAttempt_attempts (s : State) : (s.countAttempt).attempts = s.attempts + 1 := rfl
@[simp] theorem State.countAttempt_tdhit (s : State) : (s.countAttempt).tdhit = s.tdhit := rfl
@[simp] theorem State.countAttempt_cmdcnt (s : State) : (s.countAttempt).cmdcnt = s.cmdcnt := rfl
@[simp] theorem State.countAttempt_rsel (s : State) : (s.countAttempt).rsel = s.rsel := rfl
@[simp] theorem State.countAttempt_drawReq (s : State) : (s.countAttempt).drawReq = s.drawReq := rfl
@[simp] theorem State.countAttempt_draws (s : State) : (s.countAttempt).draws = s.draws := rfl
@[simp] theorem State.countAttempt_pending (s : State) : (s.countAttempt).pending = s.pending := rfl
@[simp] theorem State.countAttempt_rdata (s : State) : (s.countAttempt).rdata = s.rdata := rfl
@[simp] theorem State.countAttempt_freeReads (s : State) : (s.countAttempt).freeReads = s.freeReads := rfl

@[simp] theorem resetCore_params (s : State) : (resetCore s).params = s.params := rfl
@[simp] theorem resetCore_x (s : State) : (resetCore s).x = Vector.replicate 16 0 := rfl
@[simp] theorem resetCore_valid (s : State) : (resetCore s).valid = 0 := rfl
@[simp] theorem resetCore_flags (s : State) : (resetCore s).flags = State.reset.flags := rfl
@[simp] theorem resetCore_status (s : State) : (resetCore s).status = State.reset.status := rfl
@[simp] theorem resetCore_ctrl (s : State) : (resetCore s).ctrl = State.reset.ctrl := rfl
@[simp] theorem resetCore_cmd (s : State) : (resetCore s).cmd = 0 := rfl
@[simp] theorem resetCore_result (s : State) : (resetCore s).result = 0 := rfl
@[simp] theorem resetCore_faultcode (s : State) : (resetCore s).faultcode = 0 := rfl
@[simp] theorem resetCore_faultcmd (s : State) : (resetCore s).faultcmd = 0 := rfl
@[simp] theorem resetCore_rounds (s : State) : (resetCore s).rounds = 0 := rfl
@[simp] theorem resetCore_attempts (s : State) : (resetCore s).attempts = 0 := rfl
@[simp] theorem resetCore_tdhit (s : State) : (resetCore s).tdhit = 0 := rfl
@[simp] theorem resetCore_cmdcnt (s : State) : (resetCore s).cmdcnt = 0 := rfl
@[simp] theorem resetCore_rsel (s : State) : (resetCore s).rsel = 0 := rfl
@[simp] theorem resetCore_drawReq (s : State) : (resetCore s).drawReq = none := rfl
@[simp] theorem resetCore_draws (s : State) : (resetCore s).draws = [] := rfl
@[simp] theorem resetCore_pending (s : State) : (resetCore s).pending = s.pending := rfl
@[simp] theorem resetCore_rdata (s : State) : (resetCore s).rdata = s.rdata := rfl
@[simp] theorem resetCore_freeReads (s : State) : (resetCore s).freeReads = s.freeReads := rfl

/-! Flag updates, field by field. -/

@[simp] theorem Flags.setZNO_z (f : Flags) (v : Int) : (f.setZNO v).z = decide (v = 0) := rfl
@[simp] theorem Flags.setZNO_n (f : Flags) (v : Int) : (f.setZNO v).n = decide (v < 0) := rfl
@[simp] theorem Flags.setZNO_odd (f : Flags) (v : Int) : (f.setZNO v).odd = decide (emod v 2 = 1) := rfl
@[simp] theorem Flags.setZNO_lt (f : Flags) (v : Int) : (f.setZNO v).lt = f.lt := rfl
@[simp] theorem Flags.setZNO_eq (f : Flags) (v : Int) : (f.setZNO v).eq = f.eq := rfl
@[simp] theorem Flags.setZNO_gt (f : Flags) (v : Int) : (f.setZNO v).gt = f.gt := rfl
@[simp] theorem Flags.setZNO_div (f : Flags) (v : Int) : (f.setZNO v).div = f.div := rfl
@[simp] theorem Flags.setZNO_prime (f : Flags) (v : Int) : (f.setZNO v).prime = f.prime := rfl
@[simp] theorem Flags.setZNO_jac (f : Flags) (v : Int) : (f.setZNO v).jac = f.jac := rfl

@[simp] theorem Flags.setCompare_z (f : Flags) (a b : Int) : (f.setCompare a b).z = f.z := rfl
@[simp] theorem Flags.setCompare_n (f : Flags) (a b : Int) : (f.setCompare a b).n = f.n := rfl
@[simp] theorem Flags.setCompare_odd (f : Flags) (a b : Int) : (f.setCompare a b).odd = f.odd := rfl
@[simp] theorem Flags.setCompare_lt (f : Flags) (a b : Int) : (f.setCompare a b).lt = decide (a < b) := rfl
@[simp] theorem Flags.setCompare_eq (f : Flags) (a b : Int) : (f.setCompare a b).eq = decide (a = b) := rfl
@[simp] theorem Flags.setCompare_gt (f : Flags) (a b : Int) : (f.setCompare a b).gt = decide (b < a) := rfl
@[simp] theorem Flags.setCompare_div (f : Flags) (a b : Int) : (f.setCompare a b).div = f.div := rfl
@[simp] theorem Flags.setCompare_prime (f : Flags) (a b : Int) : (f.setCompare a b).prime = f.prime := rfl
@[simp] theorem Flags.setCompare_jac (f : Flags) (a b : Int) : (f.setCompare a b).jac = f.jac := rfl

@[simp] theorem Flags.setDiv_z (f : Flags) (b : Bool) : (f.setDiv b).z = f.z := rfl
@[simp] theorem Flags.setDiv_n (f : Flags) (b : Bool) : (f.setDiv b).n = f.n := rfl
@[simp] theorem Flags.setDiv_odd (f : Flags) (b : Bool) : (f.setDiv b).odd = f.odd := rfl
@[simp] theorem Flags.setDiv_lt (f : Flags) (b : Bool) : (f.setDiv b).lt = f.lt := rfl
@[simp] theorem Flags.setDiv_eq (f : Flags) (b : Bool) : (f.setDiv b).eq = f.eq := rfl
@[simp] theorem Flags.setDiv_gt (f : Flags) (b : Bool) : (f.setDiv b).gt = f.gt := rfl
@[simp] theorem Flags.setDiv_div (f : Flags) (b : Bool) : (f.setDiv b).div = b := rfl
@[simp] theorem Flags.setDiv_prime (f : Flags) (b : Bool) : (f.setDiv b).prime = f.prime := rfl
@[simp] theorem Flags.setDiv_jac (f : Flags) (b : Bool) : (f.setDiv b).jac = f.jac := rfl

@[simp] theorem Flags.setPrime_z (f : Flags) (b : Bool) : (f.setPrime b).z = f.z := rfl
@[simp] theorem Flags.setPrime_n (f : Flags) (b : Bool) : (f.setPrime b).n = f.n := rfl
@[simp] theorem Flags.setPrime_odd (f : Flags) (b : Bool) : (f.setPrime b).odd = f.odd := rfl
@[simp] theorem Flags.setPrime_lt (f : Flags) (b : Bool) : (f.setPrime b).lt = f.lt := rfl
@[simp] theorem Flags.setPrime_eq (f : Flags) (b : Bool) : (f.setPrime b).eq = f.eq := rfl
@[simp] theorem Flags.setPrime_gt (f : Flags) (b : Bool) : (f.setPrime b).gt = f.gt := rfl
@[simp] theorem Flags.setPrime_div (f : Flags) (b : Bool) : (f.setPrime b).div = f.div := rfl
@[simp] theorem Flags.setPrime_prime (f : Flags) (b : Bool) : (f.setPrime b).prime = b := rfl
@[simp] theorem Flags.setPrime_jac (f : Flags) (b : Bool) : (f.setPrime b).jac = f.jac := rfl

@[simp] theorem Flags.setJac_z (f : Flags) (j : Int) : (f.setJac j).z = f.z := rfl
@[simp] theorem Flags.setJac_n (f : Flags) (j : Int) : (f.setJac j).n = f.n := rfl
@[simp] theorem Flags.setJac_odd (f : Flags) (j : Int) : (f.setJac j).odd = f.odd := rfl
@[simp] theorem Flags.setJac_lt (f : Flags) (j : Int) : (f.setJac j).lt = f.lt := rfl
@[simp] theorem Flags.setJac_eq (f : Flags) (j : Int) : (f.setJac j).eq = f.eq := rfl
@[simp] theorem Flags.setJac_gt (f : Flags) (j : Int) : (f.setJac j).gt = f.gt := rfl
@[simp] theorem Flags.setJac_div (f : Flags) (j : Int) : (f.setJac j).div = f.div := rfl
@[simp] theorem Flags.setJac_prime (f : Flags) (j : Int) : (f.setJac j).prime = f.prime := rfl
@[simp] theorem Flags.setJac_jac (f : Flags) (j : Int) : (f.setJac j).jac = jacCode j := rfl

end Sys2Proof.Machine
end

