-- ==== Sys2Proof/Laws/Ops.lean ====
section
/-! SUPPORT. What each shared operation can do, said once: the register file, the source checks, the write-back, the
channel and the host's writes. Later proofs cite these and do not unfold the operations. -/

namespace Sys2Proof.Machine

/-! ### Register file -/

theorem isValid_setReg (s : State) (r q : Reg) (v : Int) :
    (s.setReg r v).isValid q = (s.isValid q || decide (q = r)) := by
  have hr := r.isLt
  have hq := q.isLt
  have key : (1#16 <<< r.toNat).getLsbD q.toNat = decide (q = r) := by
    rw [BitVec.getLsbD_shiftLeft, BitVec.getLsbD_one]
    by_cases h : q = r
    · subst h; simp; omega
    · have : q.toNat ≠ r.toNat := fun e => h (BitVec.eq_of_toNat_eq e)
      simp [h]; omega
  simp only [State.isValid, State.setReg_valid, BitVec.getLsbD_or, key]

@[simp] theorem isValid_setReg_same (s : State) (r : Reg) (v : Int) : (s.setReg r v).isValid r = true := by
  simp [isValid_setReg]

theorem isValid_setReg_ne (s : State) {r q : Reg} (v : Int) (h : q ≠ r) :
    (s.setReg r v).isValid q = s.isValid q := by
  simp [isValid_setReg, h]

@[simp] theorem reg_setReg_same (s : State) (r : Reg) (v : Int) : (s.setReg r v).reg r = v := by
  simp [State.reg]

theorem reg_setReg_ne (s : State) {r q : Reg} (v : Int) (h : q ≠ r) : (s.setReg r v).reg q = s.reg q := by
  have : r.toNat ≠ q.toNat := fun e => h (BitVec.eq_of_toNat_eq e.symm)
  simp [State.reg, this]

/-- The views of the register file depend on `x` and `valid` alone. -/
theorem isValid_congr {s t : State} (h : t.valid = s.valid) (r : Reg) : t.isValid r = s.isValid r := by
  simp [State.isValid, h]

theorem reg_congr {s t : State} (h : t.x = s.x) (r : Reg) : t.reg r = s.reg r := by
  simp [State.reg, h]

/-- A write of a value that fits keeps every register in range. -/
theorem RegsInRange.setReg {s : State} (hs : s.RegsInRange) {r : Reg} {v : Int} (hv : v.natAbs < 2 ^ s.params.W) :
    (s.setReg r v).RegsInRange := by
  intro q hq
  by_cases h : q = r
  · subst h; simpa using hv
  · rw [isValid_setReg_ne _ _ h] at hq
    rw [reg_setReg_ne _ _ h]
    exact hs q hq

/-- A batch of writes leaves every field but the register file alone. -/
theorem setRegs_eq (ws : List (Reg × Int)) (s : State) :
    s.setRegs ws = { s with x := (s.setRegs ws).x, valid := (s.setRegs ws).valid } := by
  induction ws generalizing s with
  | nil => rfl
  | cons w ws ih =>
    have h := ih (s.setReg w.1 w.2)
    simpa [State.setRegs, State.setReg] using h

/-! ### Source checks -/

@[simp] theorem withSource_valid {ra : Reg} {s : State} (k : Int → State) (h : s.isValid ra = true) :
    withSource ra s k = k (s.reg ra) := by
  simp [withSource, h]

@[simp] theorem withSource_invalid {ra : Reg} {s : State} (k : Int → State) (h : s.isValid ra = false) :
    withSource ra s k = completeFatal .uninit s := by
  simp [withSource, h]

/-- A one-source command either faults `UNINIT` or goes on. -/
theorem withSource_cases (ra : Reg) (s : State) (k : Int → State) :
    (s.isValid ra = false ∧ withSource ra s k = completeFatal .uninit s) ∨
    (s.isValid ra = true ∧ withSource ra s k = k (s.reg ra)) := by
  cases h : s.isValid ra <;> simp [h]

theorem withSources2_cases (ra rb : Reg) (s : State) (k : Int → Int → State) :
    (¬(s.isValid ra = true ∧ s.isValid rb = true) ∧ withSources2 ra rb s k = completeFatal .uninit s) ∨
    ((s.isValid ra = true ∧ s.isValid rb = true) ∧ withSources2 ra rb s k = k (s.reg ra) (s.reg rb)) := by
  cases ha : s.isValid ra <;> cases hb : s.isValid rb <;> simp [withSources2, ha, hb]

theorem withSources3_cases (ra rb rc : Reg) (s : State) (k : Int → Int → Int → State) :
    (¬(s.isValid ra = true ∧ s.isValid rb = true ∧ s.isValid rc = true) ∧
      withSources3 ra rb rc s k = completeFatal .uninit s) ∨
    ((s.isValid ra = true ∧ s.isValid rb = true ∧ s.isValid rc = true) ∧
      withSources3 ra rb rc s k = k (s.reg ra) (s.reg rb) (s.reg rc)) := by
  cases ha : s.isValid ra <;> cases hb : s.isValid rb <;> cases hc : s.isValid rc <;>
    simp [withSources3, ha, hb, hc]

theorem withModulus_cases (m : Int) (s k : State) :
    (m ≤ 0 ∧ withModulus m s k = completeFatal .badModulus s) ∨ (0 < m ∧ withModulus m s k = k) := by
  by_cases h : m ≤ 0
  · exact .inl ⟨h, by simp [withModulus, h]⟩
  · exact .inr ⟨by omega, by simp [withModulus, h]⟩

/-! ### Write-back -/

theorem fits_iff (p : Params) (v : Int) : fits p v = true ↔ v.natAbs < 2 ^ p.W := by
  rw [fits, beq_iff_eq, Nat.shiftRight_eq_div_pow, Nat.div_eq_zero_iff]
  simp

/-- The write-back either commits everything or faults `OVERFLOW` and writes nothing. -/
theorem writeBack_cases (ws : List (Reg × Int)) (f : Flags) (s : State) :
    ((∀ w ∈ ws, w.2.natAbs < 2 ^ s.params.W) ∧ writeBack ws f s = completeOk { s.setRegs ws with flags := f }) ∨
    ((∃ w ∈ ws, 2 ^ s.params.W ≤ w.2.natAbs) ∧ writeBack ws f s = completeFatal .overflow s) := by
  by_cases h : ws.all (fun w => fits s.params w.2) = true
  · refine .inl ⟨fun w hw => (fits_iff _ _).1 (List.all_eq_true.1 h w hw), by simp [writeBack, h]⟩
  · refine .inr ⟨?_, by simp [writeBack, h]⟩
    by_contra hc
    refine h (List.all_eq_true.2 fun w hw => (fits_iff _ _).2 ?_)
    by_contra hlt
    exact hc ⟨w, hw, by omega⟩

theorem writeResult_fits {rd : Reg} {v : Int} {s : State} (h : v.natAbs < 2 ^ s.params.W) :
    writeResult rd v s = completeOk { s.setReg rd v with flags := s.flags.setZNO v } := by
  simp [writeResult, writeBack, State.setRegs, (fits_iff s.params v).2 h]

theorem writeResult_overflow {rd : Reg} {v : Int} {s : State} (h : 2 ^ s.params.W ≤ v.natAbs) :
    writeResult rd v s = completeFatal .overflow s := by
  have : fits s.params v = false := by
    rw [Bool.eq_false_iff]; intro hf; exact absurd ((fits_iff _ _).1 hf) (by omega)
  simp [writeResult, writeBack, this]

theorem writeSymbol_fits {rd : Reg} {v j : Int} {s : State} (h : v.natAbs < 2 ^ s.params.W) :
    writeSymbol rd v j s = completeOk { s.setReg rd v with flags := (s.flags.setZNO v).setJac j } := by
  simp [writeSymbol, writeBack, State.setRegs, (fits_iff s.params v).2 h]

/-! ### The endings, in the words of `Safety.lean` -/

theorem completeOk_eq (s : State) : completeOk s = endedOk s := rfl

theorem completeRecoverable_eq (c : RecoverableCode) (s : State) : completeRecoverable c s = endedRecoverable c.code s :=
  rfl

theorem completeFatal_eq (c : FatalCode) (s : State) : completeFatal c s = endedFatal c.code s := rfl

theorem znoOf_eq (f : Flags) (v : Int) : znoOf f v = f.setZNO v := rfl

theorem wroteReg_writeBack {rd : Reg} {v : Int} {f : Flags} {s : State} :
    WroteReg rd v f s (completeOk { s.setReg rd v with flags := f }) := by
  exact ⟨rfl, isValid_setReg_same s rd v, reg_setReg_same s rd v,
    fun r hr => ⟨isValid_setReg_ne s v hr, reg_setReg_ne s v hr⟩⟩

/-! ### The primality test -/

/-- What a command that runs the test can do: complete on a verdict, ask for a draw, or fault `RNG_RANGE`. -/
theorem finishTest_cases (n : Int) (rounds : Nat) (s : State) (done : Bool → Nat → State) :
    (∃ b r, isprob n rounds s.draws = .verdict b r ∧ finishTest n rounds s done = completeOk (done b r)) ∨
    (isprob n rounds s.draws = .needDraw ∧ finishTest n rounds s done = requestDraw 2 (n - 1) s) ∨
    (isprob n rounds s.draws = .outOfRange ∧ finishTest n rounds s done = completeFatal .rngRange s) := by
  unfold finishTest
  cases isprob n rounds s.draws with
  | verdict b r => exact .inl ⟨b, r, rfl, rfl⟩
  | needDraw => exact .inr (.inl ⟨rfl, rfl⟩)
  | outOfRange => exact .inr (.inr ⟨rfl, rfl⟩)

/-! ### The channel and the host port -/

theorem takeAnswer_none {v : Nat} {s : State} (h : s.drawReq = none) : takeAnswer v s = s := by
  simp [takeAnswer, h]

theorem takeAnswer_some {v : Nat} {s : State} {q : DrawReq} (h : s.drawReq = some q) :
    takeAnswer v s = { s with drawReq := none, draws := s.draws ++ [v] } := by
  simp [takeAnswer, h]

/-- A read changes nothing, or is a host error, with or without a free word spent. -/
theorem memRead_state_cases (widx : WordIdx) (s : State) :
    (memRead widx s).2 = s ∨ (memRead widx s).2 = hostError s ∨
    (memRead widx s).2 = hostError { s with freeReads := s.freeReads + 1 } := by
  unfold memRead
  cases mapReg s.params widx <;> simp only [true_or, or_true, windowRead, unspecifiedRead] <;>
    (split <;> simp)

/-- Only the window's offsets name a limb, and only limbs that exist. -/
theorem mapReg_limb {p : Params} {widx : WordIdx} {k : Nat} (h : mapReg p widx = .limb k) :
    k < p.nlimbs ∧ widx.toNat = 512 + k := by
  unfold mapReg at h
  generalize widx.toNat = n at h ⊢
  split at h
  case h_17 =>
    by_cases h1 : n ≤ 30
    · simp [h1] at h
    · by_cases h2 : 512 ≤ n ∧ n < 512 + p.nlimbs
      · simp only [h1, h2, and_self, if_true, if_false, MapReg.limb.injEq] at h
        omega
      · simp [h1, h2] at h
  all_goals simp at h

/-- A write is one of the seven write rules of the map, or a host error. -/
theorem memWrite_cases (widx : WordIdx) (d : Word) (s : State) :
    memWrite widx d s = hostError s ∨ memWrite widx d s = writeCtrl d s ∨ memWrite widx d s = writeStatus d s ∨
    memWrite widx d s = writeCmd d s ∨ memWrite widx d s = unlessBusy s { s with attempts := d } ∨
    memWrite widx d s = unlessBusy s { s with rsel := d.extractLsb' 0 4 } ∨
    memWrite widx d s = unlessBusy s (writeRsign d s) ∨
    ∃ k, k < s.params.nlimbs ∧ mapReg s.params widx = .limb k ∧ memWrite widx d s = unlessBusy s (writeLimb k d s) := by
  unfold memWrite
  cases hm : mapReg s.params widx with
  | limb k =>
    exact .inr (.inr (.inr (.inr (.inr (.inr (.inr ⟨k, (mapReg_limb hm).1, rfl, rfl⟩))))))
  | _ => simp

end Sys2Proof.Machine
end

