-- ==== Sys2Proof/Laws/PerInstr.lean ====
section
/-! SUPPORT. The statement made of every command, one lemma per constructor: its word carries, in bits 31:24, the opcode
the map of `30_encoding.md` R85 gives it. -/

namespace Sys2Proof.Laws

/-- The opcode column of R85. -/
def opcode : Instr → BitVec 8
  | .nop => 0x00
  | .add _ _ _ => 0x01
  | .sub _ _ _ => 0x02
  | .addi _ _ _ => 0x03
  | .ldi _ _ => 0x04
  | .mov _ _ => 0x05
  | .cmp _ _ => 0x08
  | .cmpi _ _ => 0x09
  | .tst _ => 0x0A
  | .mul _ _ _ => 0x10
  | .mulmod _ _ _ _ => 0x11
  | .montmul _ _ _ _ => 0x12
  | .montr2 _ _ => 0x13
  | .modexp _ _ _ _ => 0x18
  | .crypt _ _ _ _ => 0x19
  | .gcd _ _ _ => 0x20
  | .xgcd _ _ _ _ _ => 0x21
  | .modinv _ _ _ => 0x22
  | .jacobi _ _ _ => 0x28
  | .jacobir _ _ _ => 0x29
  | .tdiv _ _ => 0x30
  | .tfilt _ => 0x31
  | .ssround _ _ => 0x38
  | .ptest _ _ => 0x39
  | .pcand _ _ => 0x3A

/-- The word of the command has the command's opcode (R80, R85). -/
def OpcodeMap.Statement (i : Instr) : Prop := opcodeOf (encode i) = opcode i

theorem OpcodeMap.nop : OpcodeMap.Statement .nop := opcodeOf_packR ..
theorem OpcodeMap.add (rd ra rb : Reg) : OpcodeMap.Statement (.add rd ra rb) := opcodeOf_packR ..
theorem OpcodeMap.sub (rd ra rb : Reg) : OpcodeMap.Statement (.sub rd ra rb) := opcodeOf_packR ..
theorem OpcodeMap.addi (rd ra : Reg) (imm : Imm16) : OpcodeMap.Statement (.addi rd ra imm) := opcodeOf_packI ..
theorem OpcodeMap.ldi (rd : Reg) (imm : Imm16) : OpcodeMap.Statement (.ldi rd imm) := opcodeOf_packI ..
theorem OpcodeMap.mov (rd ra : Reg) : OpcodeMap.Statement (.mov rd ra) := opcodeOf_packR ..
theorem OpcodeMap.cmp (ra rb : Reg) : OpcodeMap.Statement (.cmp ra rb) := opcodeOf_packR ..
theorem OpcodeMap.cmpi (ra : Reg) (imm : Imm16) : OpcodeMap.Statement (.cmpi ra imm) := opcodeOf_packI ..
theorem OpcodeMap.tst (ra : Reg) : OpcodeMap.Statement (.tst ra) := opcodeOf_packR ..
theorem OpcodeMap.mul (rd ra rb : Reg) : OpcodeMap.Statement (.mul rd ra rb) := opcodeOf_packR ..
theorem OpcodeMap.mulmod (rd ra rb rc : Reg) : OpcodeMap.Statement (.mulmod rd ra rb rc) := opcodeOf_packR ..
theorem OpcodeMap.montmul (rd ra rb rc : Reg) : OpcodeMap.Statement (.montmul rd ra rb rc) := opcodeOf_packR ..
theorem OpcodeMap.montr2 (rd rc : Reg) : OpcodeMap.Statement (.montr2 rd rc) := opcodeOf_packR ..
theorem OpcodeMap.modexp (rd ra rb rc : Reg) : OpcodeMap.Statement (.modexp rd ra rb rc) := opcodeOf_packR ..
theorem OpcodeMap.crypt (rd ra rb rc : Reg) : OpcodeMap.Statement (.crypt rd ra rb rc) := opcodeOf_packR ..
theorem OpcodeMap.gcd (rd ra rb : Reg) : OpcodeMap.Statement (.gcd rd ra rb) := opcodeOf_packR ..
theorem OpcodeMap.xgcd (rd rx ry ra rb : Reg) : OpcodeMap.Statement (.xgcd rd rx ry ra rb) := opcodeOf_packR ..
theorem OpcodeMap.modinv (rd ra rc : Reg) : OpcodeMap.Statement (.modinv rd ra rc) := opcodeOf_packR ..
theorem OpcodeMap.jacobi (rd ra rc : Reg) : OpcodeMap.Statement (.jacobi rd ra rc) := opcodeOf_packR ..
theorem OpcodeMap.jacobir (rd ra rc : Reg) : OpcodeMap.Statement (.jacobir rd ra rc) := opcodeOf_packR ..
theorem OpcodeMap.tdiv (ra : Reg) (imm : Imm16) : OpcodeMap.Statement (.tdiv ra imm) := opcodeOf_packI ..
theorem OpcodeMap.tfilt (ra : Reg) : OpcodeMap.Statement (.tfilt ra) := opcodeOf_packR ..
theorem OpcodeMap.ssround (ra rb : Reg) : OpcodeMap.Statement (.ssround ra rb) := opcodeOf_packR ..
theorem OpcodeMap.ptest (ra : Reg) (imm : Imm16) : OpcodeMap.Statement (.ptest ra imm) := opcodeOf_packI ..
theorem OpcodeMap.pcand (ra : Reg) (imm : Imm16) : OpcodeMap.Statement (.pcand ra imm) := opcodeOf_packI ..

end Sys2Proof.Laws
end

