-- ==== Sys2Proof/Tests/Slice0.lean ====
section
/-! SUPPORT. Tests of the model, each on one step from a small state, with expected results from `95_test_vectors.md`
(sections 2.1 to 2.10) or from the rule named; the WellFormed smoke tests; decoding of words written out from the spec;
and a witness for the hypotheses of every statement that has some. -/

namespace Sys2Proof.Tests

open Sys2Proof.Machine

/-! ### Helpers -/

/-- The next state, or the reset state where there is none. -/
def after : Host.Outcome State Fault Refusal → State
  | .next t => t
  | .fault _ => State.reset
  | .refused _ => State.reset

/-- The reset state with these registers made valid. -/
def withRegs (l : List (Reg × Int)) : State := State.reset.setRegs l

/-- The same on the smallest instance, `W = 64`. -/
def withRegs64 (l : List (Reg × Int)) : State := { withRegs l with params := ⟨0⟩ }

/-- One step that runs this command word. -/
def runWord (w : Nat) (s : State) : State := after (step (s.withFetchWord 32 w))

/-- One step of another agent. -/
def take (u : Turn) (s : State) : State := after (turn u s)

/-! ### WellFormed: one ill-formed term for each check -/

theorem test_illFormed_rd_rx : wellFormed (.xgcd 2 2 4 0 1) = false := by decide
theorem test_illFormed_rd_ry : wellFormed (.xgcd 4 3 4 0 1) = false := by decide
theorem test_illFormed_rx_ry : wellFormed (.xgcd 2 3 3 0 1) = false := by decide

/-! ### Decoding: words written out field by field from R81, R82, R85 -/

/-- `op = 0x00`, every field zero. -/
theorem test_decode_nop : (decode 0b00000000_0000_0000_0000_0000_0000_0000).toOption = some .nop := by decide
/-- `ADD r2, r0, r1`: op 0x01, rd 2, ra 0, rb 1. -/
theorem test_decode_add : (decode 0b00000001_0010_0000_0001_0000_0000_0000).toOption = some (.add 2 0 1) := by decide
theorem test_decode_sub : (decode 0b00000010_1111_0011_1010_0000_0000_0000).toOption = some (.sub 15 3 10) := by decide
/-- `ADDI r3, r0, -1`: op 0x03, rd 3, ra 0, imm16 all ones. -/
theorem test_decode_addi :
    (decode 0b00000011_0011_0000_1111111111111111).toOption = some (.addi 3 0 0xFFFF) := by decide
theorem test_decode_ldi : (decode 0b00000100_0100_0000_0000000000010001).toOption = some (.ldi 4 17) := by decide
theorem test_decode_mov : (decode 0b00000101_1001_0001_0000_0000_0000_0000).toOption = some (.mov 9 1) := by decide
theorem test_decode_cmp : (decode 0b00001000_0000_0000_0001_0000_0000_0000).toOption = some (.cmp 0 1) := by decide
theorem test_decode_cmpi : (decode 0b00001001_0000_0101_0000000000000001).toOption = some (.cmpi 5 1) := by decide
theorem test_decode_tst : (decode 0b00001010_0000_0010_0000_0000_0000_0000).toOption = some (.tst 2) := by decide
theorem test_decode_mul : (decode 0b00010000_0010_0000_0001_0000_0000_0000).toOption = some (.mul 2 0 1) := by decide
theorem test_decode_mulmod :
    (decode 0b00010001_0011_0000_0001_0010_0000_0000).toOption = some (.mulmod 3 0 1 2) := by decide
theorem test_decode_montmul :
    (decode 0b00010010_0011_0000_0001_0010_0000_0000).toOption = some (.montmul 3 0 1 2) := by decide
theorem test_decode_montr2 : (decode 0b00010011_0011_0000_0000_0010_0000_0000).toOption = some (.montr2 3 2) := by decide
theorem test_decode_modexp :
    (decode 0b00011000_0011_0000_0001_0010_0000_0000).toOption = some (.modexp 3 0 1 2) := by decide
theorem test_decode_crypt :
    (decode 0b00011001_0011_0000_0001_0010_0000_0000).toOption = some (.crypt 3 0 1 2) := by decide
theorem test_decode_gcd : (decode 0b00100000_0010_0000_0001_0000_0000_0000).toOption = some (.gcd 2 0 1) := by decide
/-- `XGCD r4, r5, r6, r0, r1`: rd 4, ra 0, rb 1, rc zero, rx 5, ry 6. -/
theorem test_decode_xgcd :
    (decode 0b00100001_0100_0000_0001_0000_0101_0110).toOption = some (.xgcd 4 5 6 0 1) := by decide
/-- `MODINV r7, r6, r5`: the modulus is in rc. -/
theorem test_decode_modinv : (decode 0b00100010_0111_0110_0000_0101_0000_0000).toOption = some (.modinv 7 6 5) := by decide
theorem test_decode_jacobi : (decode 0b00101000_0010_0000_0000_0001_0000_0000).toOption = some (.jacobi 2 0 1) := by decide
theorem test_decode_jacobir :
    (decode 0b00101001_0010_0000_0000_0001_0000_0000).toOption = some (.jacobir 2 0 1) := by decide
theorem test_decode_tdiv : (decode 0b00110000_0000_0000_0000000000110101).toOption = some (.tdiv 0 53) := by decide
theorem test_decode_tfilt : (decode 0b00110001_0000_0000_0000_0000_0000_0000).toOption = some (.tfilt 0) := by decide
theorem test_decode_ssround :
    (decode 0b00111000_0000_0000_0001_0000_0000_0000).toOption = some (.ssround 0 1) := by decide
theorem test_decode_ptest : (decode 0b00111001_0000_0100_0000000000000101).toOption = some (.ptest 4 5) := by decide
theorem test_decode_pcand : (decode 0b00111010_0000_0000_0000000000000011).toOption = some (.pcand 0 3) := by decide

/-- The opcode map's masks are the ones spec/opcode_table.json gives, and each row's match is its opcode alone. -/
theorem test_masks_of_table :
    opRows.map (fun r => ((r.op ++ 0#24 : Word), r.mask)) = matchMask := by decide

/-- The illegal forms of `95_test_vectors.md` 2.1 and 2.5, and two undefined opcodes (R87). -/
theorem test_illegal_words :
    [0x04410011, 0x01201001, 0x05201000, 0x21201134, 0x06000000, 0x3B000000].map (fun w => (decode w).toOption) =
      [none, none, none, none, none, none] := by decide

/-- R89: the word of `ADDI r3, r0, -1`. -/
theorem test_encode_addi : encode (.addi 3 0 0xFFFF) = 0x0330FFFF := by decide
theorem test_decodeTableWord : decodeTableWord 32 0x21401056 = some (.xgcd 4 5 6 0 1) := by decide

/-! ### bigint_adder, bigint_comparator (2.1, 2.2) -/

theorem test_add_signed : (runWord 0x01201000 (withRegs [(0, 61), (1, -100)])).reg 2 = -39 := by decide
theorem test_add_overflow : (runWord 0x01112000 (withRegs64 [(1, 0xFFFFFFFFFFFFFFFF), (2, 1)])).faultcode = 5 := by decide
theorem test_sub_operand_order : (runWord 0x02201000 (withRegs [(0, 5), (1, 9)])).reg 2 = -4 := by decide
theorem test_sub_uninit : (runWord 0x02210000 (withRegs [(0, 3)])).faultcode = 2 := by decide
theorem test_addi_lowest_immediate : (runWord 0x03008000 (withRegs [(0, 0)])).reg 0 = -32768 := by decide
theorem test_addi_flags : (runWord 0x0330FFFF (withRegs [(0, 61)])).flags.odd = false := by decide
theorem test_ldi_is_unsigned : (runWord 0x04F0FFFF State.reset).reg 15 = 65535 := by decide
theorem test_ldi_validates : (runWord 0x04F0FFFF State.reset).valid = 0x8000 := by decide
theorem test_mov_negative_odd : (runWord 0x05910000 (withRegs [(1, -7)])).flags.toWord = 0x006 := by decide
theorem test_cmp_negatives : (runWord 0x08001000 (withRegs [(0, -5), (1, -3)])).flags.toWord = 0x008 := by decide
theorem test_cmpi_signed : (runWord 0x09058000 (withRegs [(5, 0)])).flags.toWord = 0x020 := by decide
theorem test_tst_negative_odd : (runWord 0x0A020000 (withRegs [(2, -3)])).flags.toWord = 0x006 := by decide

/-! ### montgomery_multiplier, modular_exponentiation_engine (2.3, 2.4) -/

theorem test_mul_signs : (runWord 0x10201000 (withRegs [(0, -7), (1, -6)])).reg 2 = 42 := by decide
theorem test_mul_overflow : (runWord 0x10201000 (withRegs64 [(0, 4294967296), (1, 4294967296)])).faultcode = 5 := by decide
theorem test_mulmod_negative : (runWord 0x11301200 (withRegs [(0, -1), (1, 1), (2, 7)])).reg 3 = 6 := by decide
theorem test_mulmod_bad_modulus : (runWord 0x11301200 (withRegs [(0, 5), (1, 5), (2, 0)])).faultcode = 3 := by decide
theorem test_montmul_3233 : (runWord 0x12301200 (withRegs [(0, 5), (1, 7), (2, 3233)])).reg 3 = 631 := by
  decide +kernel
theorem test_montmul_even : (runWord 0x12301200 (withRegs [(0, 5), (1, 7), (2, 96)])).faultcode = 7 := by decide
theorem test_montr2_3233 : (runWord 0x13300200 (withRegs [(2, 3233)])).reg 3 = 3229 := by decide +kernel
theorem test_montr2_width_64 : (runWord 0x13300200 (withRegs64 [(2, 3233)])).reg 3 = 1232 := by decide +kernel
/-- The source's example S6. -/
theorem test_modexp_source : (runWord 0x18301200 (withRegs [(0, 65), (1, 17), (2, 3233)])).reg 3 = 2790 := by
  decide +kernel
theorem test_modexp_check_order : (runWord 0x18301200 (withRegs [(0, 5), (1, -1), (2, -7)])).faultcode = 3 := by decide
/-- The source's example S6. -/
theorem test_crypt_source : (runWord 0x19301200 (withRegs [(0, 2790), (1, 2753), (2, 3233)])).reg 3 = 65 := by
  decide +kernel
theorem test_crypt_block_at_modulus :
    (runWord 0x19301200 (withRegs [(0, 3233), (1, 17), (2, 3233)])).result = 2 := by decide

/-! ### extended_euclidean_core, jacobi_symbol_unit (2.5, 2.6) -/

theorem test_gcd_240_46 : (runWord 0x20201000 (withRegs [(0, 240), (1, 46)])).reg 2 = 2 := by decide +kernel
theorem test_gcd_negative : (runWord 0x20201000 (withRegs [(0, 4), (1, -8)])).faultcode = 6 := by decide
/-- Destinations that are also the sources. -/
theorem test_xgcd_aliased : (runWord 0x21001012 (withRegs [(0, 240), (1, 46)])).reg 1 = -9 := by decide +kernel
theorem test_xgcd_coinciding : (runWord 0x21201024 (withRegs [(0, 240), (1, 46)])).faultcode = 1 := by decide
/-- The source's example S7. -/
theorem test_modinv_source : (runWord 0x22760500 (withRegs [(6, 17), (5, 3120)])).reg 7 = 2753 := by decide +kernel
/-- The source's example S7. -/
theorem test_modinv_no_inverse :
    (runWord 0x22760500 (withRegs [(6, 4), (5, 8)])).status.toWord = 0x00000006 := by decide +kernel
/-- `FLAGS` after JACOBI gave −1 from the reset state (2.10). -/
theorem test_jacobi_minus_one :
    (runWord 0x28200100 (withRegs [(0, 1001), (1, 9907)])).flags.toWord = 0x00000306 := by decide +kernel
theorem test_jacobi_even_n : (runWord 0x28200100 (withRegs [(0, 3), (1, 8)])).faultcode = 7 := by decide
theorem test_jacobir_residue : (runWord 0x29200100 (withRegs [(0, 1001), (1, 9907)])).reg 2 = 9906 := by decide +kernel
theorem test_jacobir_n_one : (runWord 0x29200100 (withRegs [(0, 5), (1, 1)])).reg 2 = 1 := by decide +kernel

/-! ### trial_division_filter, primality_test_controller (2.7, 2.8) -/

theorem test_tdiv_negative : (runWord 0x30000007 (withRegs [(0, -21)])).tdhit = 7 := by decide
theorem test_tdiv_zero : (runWord 0x30000000 (withRegs [(0, 5)])).faultcode = 7 := by decide
theorem test_tfilt_minus_47 : (runWord 0x31000000 (withRegs [(0, -47)])).tdhit = 47 := by decide
theorem test_tfilt_47_passes : (runWord 0x31000000 (withRegs [(0, 47)])).flags.div = false := by decide
theorem test_ssround_liar : (runWord 0x38001000 (withRegs [(0, 561), (1, 2)])).flags.prime = true := by decide +kernel
theorem test_ssround_witness_range : (runWord 0x38001000 (withRegs [(0, 3), (1, 3)])).faultcode = 7 := by decide
theorem test_ptest_stops_at_rejection :
    (runWord 0x39040003 { withRegs [(4, 561)] with draws := [2, 5, 9] }).rounds = 2 := by decide +kernel
theorem test_ptest_bad_answer :
    (runWord 0x39040002 { withRegs [(4, 97)] with draws := [1] }).faultcode = 8 := by decide +kernel
theorem test_pcand_filtered : (runWord 0x3A000005 (withRegs [(0, 91)])).tdhit = 7 := by decide
theorem test_pcand_attempts_wrap :
    (runWord 0x3A000001 { withRegs [(0, 91)] with attempts := 0xFFFFFFFF }).attempts = 0 := by decide

/-! ### NOP, the life of a command, the host port (2.9, 2.10) -/

theorem test_nop_status : (runWord 0x00000000 State.reset).status.toWord = 0x00000002 := by decide
theorem test_nop_counts : (runWord 0x00000000 { State.reset with cmdcnt := 0xFFFFFFFF }).cmdcnt = 0 := by decide
theorem test_illegal_word_latched : (runWord 0x00000001 State.reset).faultcmd = 0x00000001 := by decide
theorem test_faulted_refuses_cmd :
    (take (.hostWrite 4 0) (runWord 0x00000001 State.reset)).status.toWord = 0x00000018 := by decide
theorem test_soft_reset_clears_fault :
    (take (.hostWrite 2 0x80000000) (runWord 0x00000001 State.reset)).status.toWord = 0 := by decide
theorem test_draw_requested :
    (runWord 0x39040003 (withRegs [(4, 97)])).drawReq = some ⟨2, 96⟩ := by decide +kernel
theorem test_read_param : (take (.hostRead 1) State.reset).rdata = 0x0F100080 := by decide
theorem test_read_last_limb_is_reserved :
    (take (.hostRead 0x202) (withRegs64 [])).status.herr = true := by decide
theorem test_write_rsel_ignores_high_bits : (take (.hostWrite 14 0xF7) State.reset).rsel = 7 := by decide
theorem test_write_ctrl_ignores_reserved : (take (.hostWrite 2 0xFFFF) State.reset).ctrl.toWord = 3 := by decide
theorem test_read_ctrl :
    (take (.hostRead 2) { State.reset with ctrl := ⟨false, true⟩ }).rdata = 0x00000002 := by decide
/-- `x[3] = -0x1_00000002`, `WR 0x804, 0` gives −2. -/
theorem test_limb_write_keeps_sign :
    (take (.hostWrite 0x201 0) { withRegs [(3, -0x100000002)] with rsel := 3 }).reg 3 = -2 := by decide
theorem test_sign_write_of_zero :
    (take (.hostWrite 15 1) { State.reset with rsel := 3 }).reg 3 = 0 := by decide

/-! ### Witnesses for the hypotheses of the statements -/

theorem reset_inRange : State.reset.RegsInRange := by
  intro r h
  simp [State.isValid, State.reset] at h

/-- Registers loaded with values below `2^64` are in range. -/
theorem withRegs_inRange (l : List (Reg × Int)) (h : ∀ p ∈ l, p.2.natAbs < 2 ^ 64) : (withRegs l).RegsInRange := by
  have gen : ∀ (l : List (Reg × Int)) (s : State), s.params = State.reset.params → s.RegsInRange →
      (∀ p ∈ l, p.2.natAbs < 2 ^ 64) → (s.setRegs l).RegsInRange := by
    intro l
    induction l with
    | nil => intro s _ hs _; exact hs
    | cons w l ih =>
      intro s hp hs hl
      refine ih (s.setReg w.1 w.2) hp (RegsInRange.setReg hs ?_) fun q hq => hl q (List.mem_cons_of_mem _ hq)
      rw [show s.params = State.reset.params from ‹_›]
      exact lt_of_lt_of_le (hl w List.mem_cons_self) (Nat.pow_le_pow_right (by decide) (by decide))
  exact gen l State.reset rfl reset_inRange h

theorem reset_inv : State.reset.Inv where
  regs := reset_inRange
  status := ⟨by decide, by decide, by decide, by decide, by decide⟩
  faultRegs := ⟨by decide, by decide⟩
  flags := ⟨by decide, by decide⟩
  channel := ⟨by decide, by simp [State.reset]⟩
  result := by decide
  rounds := by decide

/-- A faulted state that meets the invariant. -/
def faulted : State :=
  { State.reset with status := { State.reset.status with fault := true }, faultcode := 1 }

theorem faulted_inv : faulted.Inv where
  regs := by intro r h; simp [State.isValid, faulted, State.reset] at h
  status := ⟨by decide, by decide, by decide, by decide, by decide⟩
  faultRegs := ⟨by decide, by decide⟩
  flags := ⟨by decide, by decide⟩
  channel := ⟨by decide, by simp [faulted, State.reset]⟩
  result := by decide
  rounds := by decide

theorem witness_DecodeOfEncode : wellFormed (.xgcd 4 5 6 0 1) = true := by decide

theorem witness_DecodedWord : decode 0x21401056 = .ok (.xgcd 4 5 6 0 1) := by rfl

theorem witness_EngineRuns :
    (State.reset.withFetchWord 32 0).status.busy = true ∧ decode (State.reset.withFetchWord 32 0).cmd = .ok .nop ∧
    (State.reset.withFetchWord 32 0).pending = [] := ⟨by decide, rfl, by decide⟩

theorem witness_IllegalWordFaults :
    (State.reset.withFetchWord 32 1).status.busy = true ∧
    decode (State.reset.withFetchWord 32 1).cmd = .error .nonZeroField := ⟨by decide, rfl⟩

theorem witness_FatalCodes :
    wellFormed (.mov 1 0) = true ∧ State.reset.RegsInRange ∧ State.reset.status.fault = false ∧
    exec (.mov 1 0) State.reset = .next (endedFatal 2 State.reset) ∧
    (endedFatal 2 State.reset).status.fault = true := ⟨by decide, reset_inRange, by decide, rfl, by decide⟩

theorem witness_StepKeepsInvariant : State.reset.Inv ∧ step State.reset = .next State.reset := ⟨reset_inv, rfl⟩

theorem witness_ResetFromAnyState : (0x80000000#32).getLsbD 31 = true := by decide

theorem witness_FaultIsLeftOnlyByReset :
    faulted.Inv ∧ faulted.status.fault = true ∧ faulted.NoReset ∧ step faulted = .next faulted :=
  ⟨faulted_inv, by decide, by simp [State.NoReset, faulted, State.reset], rfl⟩

theorem witness_OnlyResetClearsValidBits :
    (withRegs [(0, 5)]).NoReset ∧ step (withRegs [(0, 5)]) = .next (withRegs [(0, 5)]) ∧
    (withRegs [(0, 5)]).isValid 0 = true :=
  ⟨by simp [State.NoReset, withRegs, State.setRegs, State.setReg, State.reset], rfl, by decide⟩

theorem witness_InvalidContents :
    SameButInvalid State.reset { State.reset with x := Vector.replicate 16 7 } ∧
    State.reset ≠ { State.reset with x := Vector.replicate 16 7 } :=
  ⟨⟨rfl, fun r h => by simp [State.isValid, State.reset] at h⟩, by decide⟩

theorem witness_HostCannotDisturb :
    (State.reset.withFetchWord 32 0).status.busy = true ∧ (Turn.hostWrite 2 1).resets = false := by decide

theorem witness_HostErrors_reads :
    isReserved Params.standard 31 = true ∧ isReserved Params.standard 640 = true ∧
    isForbiddenRead State.reset 15 = true ∧ isForbiddenRead State.reset 639 = true ∧
    (isReserved Params.standard 30 = false ∧ isForbiddenRead State.reset 30 = false) := by decide

theorem witness_HostErrors_writes :
    isForbiddenWrite faulted 4 = true ∧ isForbiddenWrite (State.reset.withFetchWord 32 0) 11 = true ∧
    isForbiddenWrite State.reset 0 = true ∧ isForbiddenWrite State.reset 30 = true ∧
    isForbiddenWrite State.reset 31 = true ∧ isForbiddenWrite State.reset 15 = false := by decide

theorem witness_NopWords : opcodeOf 0x00000010 = 0 ∧ (0x00000010 : Word) ≠ 0 := by decide

theorem witness_AttemptsAndSelector : State.reset.status.busy = false := by decide

theorem witness_CtrlWrite : (3#32).getLsbD 31 = false := by decide

theorem witness_Window :
    (withRegs [(0, -5)]).RegsInRange ∧ (withRegs [(0, -5)]).status.busy = false ∧
    (withRegs [(0, -5)]).isValid (withRegs [(0, -5)]).rsel = true ∧ 127 < (withRegs [(0, -5)]).params.nlimbs :=
  ⟨withRegs_inRange _ (by decide), by decide, by decide, by decide⟩

theorem witness_WaitingCommandHangs :
    ∃ t, exec (.ptest 4 3) { withRegs [(4, 97)] with status := ⟨true, false, false, false, false⟩ } = .next t ∧
      t.status.busy = true := ⟨_, rfl, by decide +kernel⟩

/-- The premise of the arithmetic statements, with valid sources. -/
theorem witness_sources_in_range :
    (withRegs [(0, 240), (1, 46), (2, 97)]).RegsInRange ∧ (withRegs [(0, 240), (1, 46), (2, 97)]).isValid 0 = true ∧
    (withRegs [(0, 240), (1, 46), (2, 97)]).isValid 1 = true ∧
    (withRegs [(0, 240), (1, 46), (2, 97)]).isValid 2 = true :=
  ⟨withRegs_inRange _ (by decide), by decide, by decide, by decide⟩

theorem witness_Xgcd_destinations : (4 : Reg) ≠ 5 ∧ (4 : Reg) ≠ 6 ∧ (5 : Reg) ≠ 6 := by decide

theorem witness_MontgomeryIdentities : (1 : Int) ≤ 97 ∧ (97 : Int) % 2 = 1 := by decide

/-- The worked trace of R144: rows 0 to 6 of `xgcd(17, 3120)`; row 5 is returned. -/
theorem test_EuclidReturns_worked_trace : EuclidReturns 17 3120 1 (-367) 2 := by
  refine .inr (.inr ⟨by decide, by decide, 4, fun i => [17, 3120, 17, 9, 8, 1, 0].getD i 0,
    fun i => [0, 0, 0, 183, 1, 1, 8].getD i 0, fun i => [1, 0, 1, -183, 184, -367].getD i 0,
    fun i => [0, 1, 0, 1, -1, 2].getD i 0, by decide, by decide, by decide, by decide, by decide⟩)

theorem witness_Bezout : (0 : Int) ≤ 17 ∧ (0 : Int) ≤ 3120 ∧ (0 : Int) < 17 := by decide

/-- The textbook key (S6): 61, 53, e = 17, d = 2753, block 65. -/
theorem witness_RsaRoundTrip :
    let s := withRegs [(0, 65), (1, 17), (2, 2753), (3, 3233)]
    s.RegsInRange ∧ Nat.Prime 61 ∧ Nat.Prime 53 ∧ (61 : Nat) ≠ 53 ∧
    (s.isValid 0 = true ∧ s.isValid 1 = true ∧ s.isValid 2 = true ∧ s.isValid 3 = true) ∧
    s.reg 3 = ((61 : Nat) : Int) * (53 : Nat) ∧ 0 ≤ s.reg 1 ∧ 0 ≤ s.reg 2 ∧
    s.reg 1 * s.reg 2 % ((((61 : Nat) : Int) - 1) * ((53 : Nat) - 1)) =
      1 % ((((61 : Nat) : Int) - 1) * ((53 : Nat) - 1)) ∧
    0 ≤ s.reg 0 ∧ s.reg 0 < s.reg 3 ∧ (4 : Reg) ≠ 2 ∧ (4 : Reg) ≠ 3 :=
  ⟨withRegs_inRange _ (by decide), by norm_num, by norm_num, by decide, by decide, by decide, by decide, by decide,
    by decide, by decide, by decide, by decide, by decide⟩

theorem round_97_2 : RoundPasses 97 2 := by
  refine ⟨by decide, ?_⟩
  have h : jacobiSym ((2 : Nat) : Int) 97 = 1 := by norm_num
  rw [h]
  decide +kernel

theorem passed_97 : PassedFirst 97 [2, 2] 2 := by
  intro i hi
  refine ⟨2, ?_, ⟨by decide, by decide⟩, round_97_2⟩
  interval_cases i <;> rfl

theorem round_561_3 : ¬RoundPasses 561 3 := fun h => absurd h.1 (by decide)

theorem witness_TestVerdict_small : TestVerdict 1 5 [] false 0 := .inl ⟨by decide, rfl, rfl⟩
theorem witness_TestVerdict_two : TestVerdict 2 5 [] true 0 := .inr (.inl ⟨rfl, rfl, rfl⟩)
theorem witness_TestVerdict_even : TestVerdict 100 5 [] false 0 := .inr (.inr (.inl ⟨by decide, by decide, rfl, rfl⟩))
theorem witness_TestVerdict_passed : TestVerdict 97 2 [2, 2] true 2 :=
  .inr (.inr (.inr (.inl ⟨⟨by decide, by decide⟩, passed_97, rfl, rfl⟩)))
theorem witness_TestVerdict_failed : TestVerdict 561 5 [3] false 1 :=
  .inr (.inr (.inr (.inr ⟨⟨by decide, by decide⟩, 0, by decide, fun _ h => absurd h (by omega),
    ⟨3, rfl, ⟨by decide, by decide⟩, round_561_3⟩, rfl, rfl⟩)))
theorem witness_TestWaits : TestWaits 97 3 [2, 2] := ⟨⟨by decide, by decide⟩, by decide, passed_97⟩
theorem witness_TestBadAnswer : TestBadAnswer 97 2 [1] :=
  ⟨⟨by decide, by decide⟩, 0, by decide, fun _ h => absurd h (by omega), 1, rfl, fun h => absurd h.1 (by decide)⟩

/-- The states of PTEST's and PCAND's statements: a valid source with these numbers and answers. -/
theorem witness_Ptest_states :
    (∃ s : State, s.isValid 4 = true ∧ TestVerdict (s.reg 4) (2#16).toNat s.draws true 2) ∧
    (∃ s : State, s.isValid 4 = true ∧ TestWaits (s.reg 4) (3#16).toNat s.draws) ∧
    (∃ s : State, s.isValid 4 = true ∧ TestBadAnswer (s.reg 4) (2#16).toNat s.draws) ∧ State.reset.isValid 4 = false :=
  ⟨⟨{ withRegs [(4, 97)] with draws := [2, 2] }, by decide, witness_TestVerdict_passed⟩,
   ⟨{ withRegs [(4, 97)] with draws := [2, 2] }, by decide, witness_TestWaits⟩,
   ⟨{ withRegs [(4, 97)] with draws := [1] }, by decide, witness_TestBadAnswer⟩, by decide⟩

theorem witness_FirstReject : FirstReject 7 91 := by
  unfold FirstReject Rejects
  decide

theorem witness_PassesFilter : PassesFilter 97 := by
  unfold PassesFilter Rejects
  decide

theorem witness_Tdiv_clauses : ((7 : Nat) : Int) ∣ -21 ∧ ¬((7 : Nat) : Int) ∣ -20 := by decide

theorem witness_PrimesPassEveryTest :
    let s := { withRegs [(4, 97)] with draws := [2, 96] }
    s.isValid 4 = true ∧ s.reg 4 = ((97 : Nat) : Int) ∧ Nat.Prime 97 ∧
    (97 ≠ 2 → (2#16).toNat ≤ s.draws.length ∧ ∀ a ∈ s.draws, InRange ((97 : Nat) : Int) a) := by
  refine ⟨by decide, by decide, by norm_num, fun _ => ⟨by decide, ?_⟩⟩
  unfold InRange
  decide

/-- The number 2, with rounds asked for and an answer kept, meets the premises too. -/
theorem witness_PrimesPassEveryTest_two :
    let s := { withRegs [(4, 2)] with draws := [7] }
    s.isValid 4 = true ∧ s.reg 4 = ((2 : Nat) : Int) ∧ Nat.Prime 2 ∧
    (2 ≠ 2 → (5#16).toNat ≤ s.draws.length ∧ ∀ a ∈ s.draws, InRange ((2 : Nat) : Int) a) :=
  ⟨by decide, by decide, by norm_num, fun h => absurd rfl h⟩

theorem witness_LastWitness :
    let s := withRegs [(0, 9), (1, 8)]
    s.isValid 0 = true ∧ s.isValid 1 = true ∧ NeedsRounds (s.reg 0) ∧ s.reg 1 = s.reg 0 - 1 := by
  unfold NeedsRounds
  decide

end Sys2Proof.Tests
end

section
/-! SUPPORT. What a command's completion and an agent's turn can do, said once; the invariant, the valid bits and the
register map are read off these. -/

namespace Sys2Proof.Machine

/-! ### The register file -/

/-- A batch of writes that all fit keeps every register in range. -/
theorem RegsInRange.setRegs {ws : List (Reg × Int)} {s : State} (hs : s.RegsInRange)
    (hw : ∀ w ∈ ws, w.2.natAbs < 2 ^ s.params.W) : (s.setRegs ws).RegsInRange := by
  induction ws generalizing s with
  | nil => exact hs
  | cons w ws ih =>
    exact ih (s := s.setReg w.1 w.2) (RegsInRange.setReg hs (hw w List.mem_cons_self))
      fun q hq => hw q (List.mem_cons_of_mem _ hq)

theorem isValid_setReg_of_isValid {s : State} {q : Reg} (r : Reg) (v : Int) (h : s.isValid q = true) :
    (s.setReg r v).isValid q = true := by
  simp [isValid_setReg, h]

theorem isValid_setRegs_of_isValid {s : State} {q : Reg} (ws : List (Reg × Int)) (h : s.isValid q = true) :
    (s.setRegs ws).isValid q = true := by
  induction ws generalizing s with
  | nil => exact h
  | cons w ws ih => exact ih (s := s.setReg w.1 w.2) (isValid_setReg_of_isValid _ _ h)

/-! ### Flags and codes -/

/-- The three-way compare sets exactly one of its flags and leaves `JAC` alone. -/
theorem State.FlagsOk.setCompare {s t : State} (h : s.FlagsOk) (a b : Int) (e : t.flags = s.flags.setCompare a b) :
    t.FlagsOk where
  compare := by
    rcases lt_trichotomy a b with hlt | heq | hgt
    · simp [e, hlt, hlt.ne, hlt.not_gt]
    · simp [e, heq]
    · simp [e, hgt, hgt.ne', hgt.not_gt]
  jac := by rw [e]; exact h.jac

theorem jacCode_ne_two (j : Int) : jacCode j ≠ 0b10 := by
  unfold jacCode
  split
  · decide
  · split <;> decide

/-- The code of a fatal outcome is one of the eight (R202). -/
theorem FatalCode.code_range (c : FatalCode) : 1 ≤ c.code.toNat ∧ c.code.toNat ≤ 8 := by
  cases c <;> decide

theorem RecoverableCode.code_le_two (c : RecoverableCode) : c.code.toNat ≤ 2 := by
  cases c <;> decide

/-! ### The primality test -/

/-- The test counts at most the rounds asked for. -/
theorem isprobLoop_rounds_le {n : Int} {b : Bool} {r' : Nat} (left : Nat) :
    ∀ (r : Nat) (ds : List Nat), isprobLoop n left r ds = .verdict b r' → r' ≤ r + left := by
  induction left with
  | zero => rintro r ds ⟨⟩; simp
  | succ left ih =>
    intro r ds h
    cases ds with
    | nil => simp [isprobLoop] at h
    | cons a rest =>
      rw [isprobLoop] at h
      split at h
      · cases h
      · split at h
        · have := ih _ _ h; omega
        · cases h; omega

theorem isprob_rounds_le {n : Int} {rounds r : Nat} {ds : List Nat} {b : Bool}
    (h : isprob n rounds ds = .verdict b r) : r ≤ rounds := by
  unfold isprob at h
  split at h
  · cases h; simp
  · split at h
    · cases h; simp
    · split at h
      · cases h; simp
      · simpa using isprobLoop_rounds_le _ _ _ h

/-- Only a number above 2 needs witnesses. -/
theorem two_lt_of_isprob_needDraw {n : Int} {rounds : Nat} {ds : List Nat}
    (h : isprob n rounds ds = .needDraw) : 2 < n := by
  unfold isprob at h
  split at h
  · cases h
  · split at h
    · cases h
    · omega

/-! ### The ways a command can end (R185) -/

/-- `u` is `s` with a command's own writes, before the completion: nothing but the register file, the flags and the unit
counters differs, no valid bit is cleared, and what was in range or legal stays so. -/
structure CommandWrites (s u : State) : Prop where
  frame : u = { s with x := u.x, valid := u.valid, flags := u.flags, rounds := u.rounds, attempts := u.attempts,
                       tdhit := u.tdhit }
  valid : ∀ r, s.isValid r = true → u.isValid r = true
  regs : s.RegsInRange → u.RegsInRange
  flags : s.FlagsOk → u.FlagsOk
  rounds : s.rounds.toNat ≤ 65535 → u.rounds.toNat ≤ 65535

/-- The state a command leaves: one of the three completions, or still in flight with a witness requested for the
number in a valid register. -/
inductive CommandEnd (s : State) : State → Prop
  | ok {u : State} (hu : CommandWrites s u) : CommandEnd s (completeOk u)
  | recoverable (c : RecoverableCode) : CommandEnd s (completeRecoverable c s)
  | fatal (c : FatalCode) : CommandEnd s (completeFatal c s)
  | waiting {ra : Reg} (hv : s.isValid ra = true) (hn : 2 < s.reg ra) :
      CommandEnd s (requestDraw 2 (s.reg ra - 1) s)

theorem CommandWrites.of_registers_kept {s u : State} (frame : u = { s with
      flags := u.flags, rounds := u.rounds, attempts := u.attempts, tdhit := u.tdhit })
    (flags : s.FlagsOk → u.FlagsOk) (rounds : s.rounds.toNat ≤ 65535 → u.rounds.toNat ≤ 65535) :
    CommandWrites s u where
  frame := by rw [frame]
  valid r h := by rw [frame]; exact h
  regs h := by rw [frame]; exact h
  flags := flags
  rounds := rounds

/-- A verdict of at most 65535 rounds is a legal write, with or without a trial-division result before it. -/
theorem CommandWrites.of_verdict {s u : State} {r : Nat} (hr : r < 2 ^ 16)
    (frame : u = { s with flags := u.flags, rounds := u.rounds, attempts := u.attempts, tdhit := u.tdhit })
    (hrounds : u.rounds = BitVec.ofNat 32 r)
    (hflags : u.flags = { s.flags with div := u.flags.div, prime := u.flags.prime }) : CommandWrites s u :=
  .of_registers_kept frame
    (fun h => ⟨by rw [hflags]; exact h.compare, by rw [hflags]; exact h.jac⟩)
    (fun _ => by rw [hrounds, BitVec.toNat_ofNat]; omega)

theorem CommandEnd.withSource {s : State} {ra : Reg} {k : Int → State}
    (hk : s.isValid ra = true → CommandEnd s (k (s.reg ra))) : CommandEnd s (withSource ra s k) := by
  rcases withSource_cases ra s k with ⟨-, e⟩ | ⟨hv, e⟩ <;> rw [e]
  · exact .fatal .uninit
  · exact hk hv

theorem CommandEnd.withSources2 {s : State} {ra rb : Reg} {k : Int → Int → State}
    (hk : CommandEnd s (k (s.reg ra) (s.reg rb))) : CommandEnd s (withSources2 ra rb s k) :=
  .withSource fun _ => .withSource fun _ => hk

theorem CommandEnd.withSources3 {s : State} {ra rb rc : Reg} {k : Int → Int → Int → State}
    (hk : CommandEnd s (k (s.reg ra) (s.reg rb) (s.reg rc))) : CommandEnd s (withSources3 ra rb rc s k) :=
  .withSource fun _ => .withSource fun _ => .withSource fun _ => hk

theorem CommandEnd.withModulus {s k : State} {m : Int} (hk : CommandEnd s k) : CommandEnd s (withModulus m s k) := by
  rcases withModulus_cases m s k with ⟨-, e⟩ | ⟨-, e⟩ <;> rw [e]
  · exact .fatal .badModulus
  · exact hk

theorem CommandEnd.ite {s t u : State} {p : Prop} [Decidable p] (ht : CommandEnd s t) (hu : CommandEnd s u) :
    CommandEnd s (if p then t else u) := by
  split
  · exact ht
  · exact hu

theorem CommandEnd.writeBack {s : State} {ws : List (Reg × Int)} {f : Flags}
    (hf : s.FlagsOk → State.FlagsOk { s with flags := f }) : CommandEnd s (writeBack ws f s) := by
  rcases writeBack_cases ws f s with ⟨hw, e⟩ | ⟨-, e⟩ <;> rw [e]
  · refine .ok ⟨?_, fun r => isValid_setRegs_of_isValid ws, fun h => RegsInRange.setRegs h hw,
      fun h => ⟨(hf h).compare, (hf h).jac⟩, fun h => ?_⟩
    · rw [setRegs_eq]
    · rw [setRegs_eq]; exact h
  · exact .fatal .overflow

theorem CommandEnd.writeResult {s : State} {rd : Reg} {v : Int} : CommandEnd s (writeResult rd v s) :=
  .writeBack fun h => ⟨h.compare, h.jac⟩

theorem CommandEnd.writeSymbol {s : State} {rd : Reg} {v j : Int} : CommandEnd s (writeSymbol rd v j s) :=
  .writeBack fun h => ⟨h.compare, jacCode_ne_two j⟩

theorem CommandEnd.setCompare {s : State} {a b : Int} :
    CommandEnd s (completeOk { s with flags := s.flags.setCompare a b }) :=
  .ok (.of_registers_kept rfl (fun h => h.setCompare a b rfl) id)

theorem CommandEnd.setHit {s : State} {d : Nat} : CommandEnd s (completeOk (s.setHit d)) :=
  .ok (.of_registers_kept rfl (fun h => ⟨h.compare, h.jac⟩) id)

theorem CommandEnd.finishTest {s : State} {ra : Reg} {imm : Imm16} {done : Bool → Nat → State}
    (hv : s.isValid ra = true) (hdone : ∀ b r, r < 2 ^ 16 → CommandWrites s (done b r)) :
    CommandEnd s (finishTest (s.reg ra) (uimm imm) s done) := by
  rcases finishTest_cases (s.reg ra) (uimm imm) s done with ⟨b, r, hp, e⟩ | ⟨hp, e⟩ | ⟨-, e⟩ <;> rw [e]
  · exact .ok (hdone b r (lt_of_le_of_lt (isprob_rounds_le hp) imm.isLt))
  · exact .waiting hv (two_lt_of_isprob_needDraw hp)
  · exact .fatal .rngRange

/-- Every command, in every state, ends in one of the four ways. -/
theorem exec_commandEnd (i : Instr) (s : State) : ∃ t, exec i s = .next t ∧ CommandEnd s t := by
  cases i with
  | nop => exact ⟨_, rfl, .ok (.of_registers_kept rfl id id)⟩
  | add => exact ⟨_, rfl, .withSources2 .writeResult⟩
  | sub => exact ⟨_, rfl, .withSources2 .writeResult⟩
  | addi => exact ⟨_, rfl, .withSource fun _ => .writeResult⟩
  | ldi => exact ⟨_, rfl, .writeResult⟩
  | mov => exact ⟨_, rfl, .withSource fun _ => .writeResult⟩
  | cmp => exact ⟨_, rfl, .withSources2 .setCompare⟩
  | cmpi => exact ⟨_, rfl, .withSource fun _ => .setCompare⟩
  | tst =>
    exact ⟨_, rfl, .withSource fun _ => .ok (.of_registers_kept rfl (fun h => ⟨h.compare, h.jac⟩) id)⟩
  | mul => exact ⟨_, rfl, .withSources2 .writeResult⟩
  | mulmod => exact ⟨_, rfl, .withSources3 (.withModulus .writeResult)⟩
  | montmul => exact ⟨_, rfl, .withSources3 (.withModulus (.ite (.fatal .domain) .writeResult))⟩
  | montr2 => exact ⟨_, rfl, .withSource fun _ => .withModulus .writeResult⟩
  | modexp => exact ⟨_, rfl, .withSources3 (.withModulus (.ite (.fatal .negExponent) .writeResult))⟩
  | crypt =>
    exact ⟨_, rfl, .withSources3 (.withModulus (.ite (.fatal .negExponent)
      (.ite (.recoverable .blockTooLarge) .writeResult)))⟩
  | gcd => exact ⟨_, rfl, .withSources2 (.ite (.fatal .negOperand) .writeResult)⟩
  | xgcd =>
    exact ⟨_, rfl, .ite (.withSources2 (.ite (.fatal .negOperand) (.writeBack fun h => ⟨h.compare, h.jac⟩)))
      (.fatal .illegalCmd)⟩
  | modinv =>
    exact ⟨_, rfl, .withSources2 (.withModulus (.ite (.fatal .negOperand)
      (.ite (.recoverable .noInverse) .writeResult)))⟩
  | jacobi => exact ⟨_, rfl, .withSources2 (.ite (.fatal .domain) .writeSymbol)⟩
  | jacobir => exact ⟨_, rfl, .withSources2 (.ite (.fatal .domain) .writeSymbol)⟩
  | tdiv => exact ⟨_, rfl, .withSource fun _ => .ite (.fatal .domain) .setHit⟩
  | tfilt => exact ⟨_, rfl, .withSource fun _ => .setHit⟩
  | ssround =>
    exact ⟨_, rfl, .withSources2 (.ite (.fatal .domain) (.ite (.fatal .domain)
      (.ok (.of_verdict (r := 1) (by decide) rfl rfl rfl))))⟩
  | ptest =>
    exact ⟨_, rfl, .withSource fun hv => .finishTest hv fun _ _ hr => .of_verdict hr rfl rfl rfl⟩
  | pcand =>
    exact ⟨_, rfl, .withSource fun hv => .ite (.ok (.of_verdict (r := 0) (by decide) rfl rfl rfl))
      (.finishTest hv fun _ _ hr => .of_verdict hr rfl rfl rfl)⟩

/-! ### The window's limbs (R23, R45, R46) -/

theorem toNat_limbOf (m k : Nat) : (limbOf m k).toNat = digit m k := by
  simp [limbOf, digit]

theorem div_above_limb (m k : Nat) : m / 2 ^ (32 * (k + 1)) = m / 2 ^ (32 * k) / 2 ^ 32 := by
  rw [Nat.div_div_eq_div_mul, ← pow_add, Nat.mul_succ]

/-- A magnitude is what lies above limb k, limb k, and what lies below it. -/
theorem eq_high_digit_low (m k : Nat) :
    m = (m / 2 ^ (32 * (k + 1)) * 2 ^ 32 + digit m k) * 2 ^ (32 * k) + m % 2 ^ (32 * k) := by
  rw [div_above_limb, digit, Nat.div_add_mod', Nat.div_add_mod']

theorem replaceLimb_eq (m k : Nat) (d : Word) : replaceLimb m k d =
    (m / 2 ^ (32 * (k + 1)) * 2 ^ 32 + d.toNat) * 2 ^ (32 * k) + m % 2 ^ (32 * k) := by
  have hm := eq_high_digit_low m k
  rw [replaceLimb, toNat_limbOf]
  rw [Nat.add_mul] at hm ⊢
  omega

/-- What lies below the limb replaced stays. -/
theorem replaceLimb_mod (m k : Nat) (d : Word) : replaceLimb m k d % 2 ^ (32 * k) = m % 2 ^ (32 * k) := by
  rw [replaceLimb_eq, Nat.mul_add_mod', Nat.mod_mod]

theorem replaceLimb_div (m k : Nat) (d : Word) :
    replaceLimb m k d / 2 ^ (32 * k) = m / 2 ^ (32 * (k + 1)) * 2 ^ 32 + d.toNat := by
  have hlow : m % 2 ^ (32 * k) < 2 ^ (32 * k) := Nat.mod_lt _ (by positivity)
  rw [replaceLimb_eq, Nat.add_comm, Nat.add_mul_div_right _ _ (by positivity), Nat.div_eq_of_lt hlow, Nat.zero_add]

/-- What lies above the limb replaced stays. -/
theorem replaceLimb_div_of_lt {k j : Nat} (m : Nat) (d : Word) (h : k < j) :
    replaceLimb m k d / 2 ^ (32 * j) = m / 2 ^ (32 * j) := by
  obtain ⟨i, rfl⟩ := Nat.exists_eq_add_of_lt h
  have hsplit : 2 ^ (32 * (k + i + 1)) = 2 ^ (32 * k) * 2 ^ 32 * 2 ^ (32 * i) := by
    rw [← pow_add, ← pow_add]; congr 1; omega
  have hd : (m / 2 ^ (32 * (k + 1)) * 2 ^ 32 + d.toNat) / 2 ^ 32 = m / 2 ^ (32 * (k + 1)) := by
    have := d.isLt
    omega
  rw [hsplit]
  simp only [← Nat.div_div_eq_div_mul]
  rw [replaceLimb_div, hd, div_above_limb]

/-- A replaced limb below `NLIMBS` keeps the magnitude below `2^W`. -/
theorem replaceLimb_lt {p : Params} {m k : Nat} {d : Word} (hk : k < p.nlimbs) (hm : m < 2 ^ p.W) :
    replaceLimb m k d < 2 ^ p.W := by
  have h := replaceLimb_div_of_lt m d hk
  rw [← Params.W, Nat.div_eq_of_lt hm, Nat.div_eq_zero_iff] at h
  exact h.resolve_left (by positivity)

@[simp] theorem natAbs_signed (neg : Bool) (m : Nat) : (signed neg m).natAbs = m := by
  cases neg <;> simp [signed]

theorem natAbs_windowBase_lt {s : State} (h : s.RegsInRange) : s.windowBase.natAbs < 2 ^ s.params.W := by
  unfold State.windowBase
  split
  next hv => exact h _ hv
  next => simp

/-! ### The host port -/

theorem turn_eq_takeTurn (u : Turn) (s : State) : turn u s = takeTurn u s := rfl

/-- A step is one agent's turn, taken with that turn off the list; with none listed it is the engine's. -/
theorem step_eq_takeTurn (s : State) :
    ∃ u l, step s = takeTurn u { s with pending := l } ∧ (s.NoReset → u.resets = false) := by
  cases hp : s.pending with
  | nil =>
    have he : step s = engineStep s := by simp only [step, hp]
    exact ⟨.engine, s.pending, he, fun _ => rfl⟩
  | cons u l =>
    exact ⟨u, l, by simp only [step, hp], fun h => h u (by simp [hp])⟩

/-- Only offset `0x008` names `CTRL`. -/
theorem eq_two_of_mapReg_ctrl {p : Params} {widx : WordIdx} (h : mapReg p widx = .ctrl) : widx = 2 := by
  have hn : widx.toNat = 2 := by
    unfold mapReg at h
    generalize widx.toNat = n at h ⊢
    split at h
    case h_3 => rfl
    case h_17 =>
      split at h
      · cases h
      · split at h <;> cases h
    all_goals cases h
  exact BitVec.eq_of_toNat_eq hn

/-- A turn that resets leaves the reset state (R230, R232). -/
theorem takeTurn_of_resets {u : Turn} (s : State) (h : u.resets = true) : takeTurn u s = .next (resetCore s) := by
  cases u with
  | hardReset => rfl
  | hostWrite widx d =>
    obtain ⟨hw, hd⟩ : widx = 2 ∧ d.getLsbD 31 = true := by simpa [Turn.resets] using h
    subst hw
    have hm : memWrite 2 d s = writeCtrl d s := rfl
    rw [takeTurn, hm, writeCtrl, if_pos hd]
  | engine => cases h
  | hostRead widx => cases h
  | answer v => cases h
  | lateAnswer v => cases h

/-- What a host access that neither resets nor issues can do. -/
structure HostAccess (s t : State) : Prop where
  frame : t = { s with
    x := t.x, valid := t.valid, status := { s.status with done := t.status.done, herr := t.status.herr }
    ctrl := t.ctrl, attempts := t.attempts, rsel := t.rsel, rdata := t.rdata, freeReads := t.freeReads }
  done : t.status.done = true → s.status.done = true
  valid : ∀ r, s.isValid r = true → t.isValid r = true
  regs : s.RegsInRange → t.RegsInRange

/-- What a turn that does not reset can do. -/
inductive TurnEffect (s : State) : State → Prop
  | idle : TurnEffect s s
  | command {t : State} (hb : s.status.busy = true) (h : CommandEnd s t) : TurnEffect s t
  | access {t : State} (h : HostAccess s t) : TurnEffect s t
  | issue (w : Word) (hb : s.status.busy = false) (hf : s.status.fault = false) : TurnEffect s (issue w s)
  | answer (v : Nat) {q : DrawReq} (hq : s.drawReq = some q) :
      TurnEffect s { s with drawReq := none, draws := s.draws ++ [v] }

theorem HostAccess.of_registers_kept {s t : State} (frame : t = { s with
      status := { s.status with done := t.status.done, herr := t.status.herr }
      ctrl := t.ctrl, attempts := t.attempts, rsel := t.rsel, rdata := t.rdata, freeReads := t.freeReads })
    (done : t.status.done = true → s.status.done = true) : HostAccess s t where
  frame := by rw [frame]
  done := done
  valid r h := by rw [frame]; exact h
  regs h := by rw [frame]; exact h

theorem HostAccess.hostError (s : State) : HostAccess s (hostError s) := .of_registers_kept rfl id

theorem HostAccess.unlessBusy {s t : State} (h : HostAccess s t) : HostAccess s (unlessBusy s t) := by
  unfold Machine.unlessBusy
  split
  · exact .hostError s
  · exact h

theorem HostAccess.hostRead (widx : WordIdx) (s : State) : HostAccess s (hostRead widx s) := by
  unfold Machine.hostRead
  rcases memRead_state_cases widx s with e | e | e <;> rw [e] <;> exact .of_registers_kept rfl id

theorem HostAccess.setReg {s : State} {v : Int} (hv : s.RegsInRange → v.natAbs < 2 ^ s.params.W) :
    HostAccess s (s.setReg s.rsel v) where
  frame := rfl
  done := id
  valid _ h := isValid_setReg_of_isValid _ _ h
  regs h := RegsInRange.setReg h (hv h)

theorem HostAccess.writeStatus (d : Word) (s : State) : HostAccess s (writeStatus d s) :=
  .of_registers_kept rfl fun h => by
    have h' : (s.status.done && !d.getLsbD 1) = true := h
    exact (Bool.and_eq_true_iff.1 h').1

theorem HostAccess.writeRsign (d : Word) (s : State) : HostAccess s (writeRsign d s) :=
  .setReg fun h => by rw [natAbs_signed]; exact natAbs_windowBase_lt h

theorem HostAccess.writeLimb {k : Nat} (d : Word) {s : State} (hk : k < s.params.nlimbs) :
    HostAccess s (writeLimb k d s) :=
  .setReg fun h => by rw [natAbs_signed]; exact replaceLimb_lt hk (natAbs_windowBase_lt h)

theorem writeCmd_effect (d : Word) (s : State) : TurnEffect s (writeCmd d s) := by
  unfold writeCmd
  split
  next => exact .access (.hostError s)
  next hbf =>
    rw [Bool.not_eq_true, Bool.or_eq_false_iff] at hbf
    exact .issue d hbf.1 hbf.2

/-- A write issues a command or is an access, if it does not reset. -/
theorem memWrite_effect {widx : WordIdx} {d : Word} (s : State) (h : (Turn.hostWrite widx d).resets = false) :
    TurnEffect s (memWrite widx d s) := by
  unfold memWrite
  cases hm : mapReg s.params widx with
  | ctrl =>
    have hd : d.getLsbD 31 = false := by simpa [Turn.resets, eq_two_of_mapReg_ctrl hm] using h
    simp only [writeCtrl, hd]
    exact .access (.of_registers_kept rfl id)
  | status => exact .access (.writeStatus d s)
  | cmd => exact writeCmd_effect d s
  | attempts => exact .access (.unlessBusy (.of_registers_kept rfl id))
  | rsel => exact .access (.unlessBusy (.of_registers_kept rfl id))
  | rsign => exact .access (.unlessBusy (.writeRsign d s))
  | limb k => exact .access (.unlessBusy (.writeLimb d (mapReg_limb hm).1))
  | _ => exact .access (.hostError s)

theorem engineStep_effect (s : State) : ∃ t, engineStep s = .next t ∧ TurnEffect s t := by
  unfold engineStep
  split
  next hb =>
    split
    next i _ =>
      obtain ⟨t, e, h⟩ := exec_commandEnd i s
      exact ⟨t, e, .command hb h⟩
    next e _ => exact ⟨_, rfl, .command hb (.fatal .illegalCmd)⟩
  next => exact ⟨s, rfl, .idle⟩

/-- Every turn answers a next state; one that does not reset has one of the five effects. -/
theorem takeTurn_effect {u : Turn} (s : State) (hu : u.resets = false) :
    ∃ t, takeTurn u s = .next t ∧ TurnEffect s t := by
  cases u with
  | engine => exact engineStep_effect s
  | hostRead widx => exact ⟨_, rfl, .access (.hostRead widx s)⟩
  | hostWrite widx d => exact ⟨_, rfl, memWrite_effect s hu⟩
  | answer v =>
    refine ⟨_, rfl, ?_⟩
    cases hq : s.drawReq with
    | none => rw [takeAnswer_none hq]; exact .idle
    | some q => rw [takeAnswer_some hq]; exact .answer v hq
  | lateAnswer v => exact ⟨s, rfl, .idle⟩
  | hardReset => cases hu

end Sys2Proof.Machine
end

section
/-! SUPPORT. The invariant of CORE's state: it holds at reset, and every step keeps it; no step but a reset clears a valid
bit; a reset leaves the state of R52. -/

namespace Sys2Proof.Machine

/-! ### Each effect of a turn keeps the invariant -/

theorem State.Inv.with_pending {s : State} (h : s.Inv) (l : List Turn) : State.Inv { s with pending := l } where
  regs := h.regs
  status := { h.status with }
  faultRegs := { h.faultRegs with }
  flags := { h.flags with }
  channel := { h.channel with }
  result := h.result
  rounds := h.rounds

/-- The state a reset leaves meets the invariant, whatever the state before it. -/
theorem inv_resetCore (s : State) : (resetCore s).Inv where
  regs r hr := by simp [State.isValid] at hr
  status := ⟨fun _ => rfl, fun _ => rfl, fun _ => rfl, fun _ => rfl, fun _ => rfl⟩
  faultRegs := ⟨fun _ => ⟨rfl, rfl⟩, by simp [State.reset]⟩
  flags := ⟨by simp [State.reset], by simp [State.reset]⟩
  channel := ⟨fun _ => ⟨rfl, rfl⟩, by simp⟩
  result := by simp
  rounds := by simp

theorem State.Inv.completeFatal {s : State} (h : s.Inv) (hb : s.status.busy = true) (c : FatalCode) :
    (completeFatal c s).Inv where
  regs := h.regs
  status := ⟨by simp, by simp, by simp, fun _ => h.status.busy_not_done hb, fun _ => h.status.busy_not_err hb⟩
  faultRegs := ⟨by simp, fun _ => ⟨c.code_range.1, c.code_range.2, rfl⟩⟩
  flags := { h.flags with }
  channel := ⟨fun _ => ⟨rfl, rfl⟩, by simp⟩
  result := h.result
  rounds := h.rounds

theorem State.Inv.completeRecoverable {s : State} (h : s.Inv) (hb : s.status.busy = true) (c : RecoverableCode) :
    (completeRecoverable c s).Inv where
  regs := h.regs
  status := ⟨by simp, by simp, by simp, by simp [h.status.busy_not_fault hb], by simp [h.status.busy_not_fault hb]⟩
  faultRegs := { h.faultRegs with }
  flags := { h.flags with }
  channel := ⟨fun _ => ⟨rfl, rfl⟩, by simp⟩
  result := c.code_le_two
  rounds := h.rounds

theorem State.Inv.completeOk {s u : State} (h : s.Inv) (hb : s.status.busy = true) (hu : CommandWrites s u) :
    (completeOk u).Inv := by
  have hst : u.status = s.status := by rw [hu.frame]
  have hf : u.status.fault = false := by rw [hst]; exact h.status.busy_not_fault hb
  have hfr := h.faultRegs.clear (h.status.busy_not_fault hb)
  exact {
    regs := hu.regs h.regs
    status := ⟨by simp, by simp, by simp, by simp [hf], by simp [hf]⟩
    faultRegs := ⟨fun _ => by rw [hu.frame]; exact hfr, by simp [hf]⟩
    flags := { hu.flags h.flags with }
    channel := ⟨fun _ => ⟨rfl, rfl⟩, by simp⟩
    result := by simp
    rounds := hu.rounds h.rounds }

/-- A requested range lies in `[0, 2^W - 1]`, because the number tested is in a valid register. -/
theorem State.Inv.requestDraw {s : State} (h : s.Inv) (hb : s.status.busy = true) {ra : Reg} (hv : s.isValid ra = true)
    (hn : 2 < s.reg ra) : (requestDraw 2 (s.reg ra - 1) s).Inv where
  regs := h.regs
  status := { h.status with }
  faultRegs := { h.faultRegs with }
  flags := { h.flags with }
  channel := by
    refine ⟨by simp [hb], fun q hq => ?_⟩
    have hlt : ((s.reg ra).natAbs : Int) < 2 ^ s.params.W := by exact_mod_cast h.regs ra hv
    cases hq
    rw [requestDraw_params]
    refine ⟨?_, ?_, ?_⟩ <;> dsimp only <;> omega
  result := h.result
  rounds := h.rounds

theorem State.Inv.commandEnd {s t : State} (h : s.Inv) (hb : s.status.busy = true) (ht : CommandEnd s t) : t.Inv := by
  cases ht with
  | ok hu => exact h.completeOk hb hu
  | recoverable c => exact h.completeRecoverable hb c
  | fatal c => exact h.completeFatal hb c
  | waiting hv hn => exact h.requestDraw hb hv hn

/-- No access but an issue or a reset touches what the invariant speaks of, except `DONE`, which it may clear, and the
selected register. -/
theorem State.Inv.hostAccess {s t : State} (h : s.Inv) (ht : HostAccess s t) : t.Inv := by
  obtain ⟨frame, hdone, -, hregs⟩ := ht
  have hdone' : s.status.done = false → t.status.done = false := fun hs =>
    Bool.eq_false_iff.2 fun e => by simp [hdone e] at hs
  have hregs' := hregs h.regs
  rw [frame] at hregs' ⊢
  exact {
    regs := hregs'
    status := { h.status with
      busy_not_done := fun e => hdone' (h.status.busy_not_done e)
      fault_not_done := fun e => hdone' (h.status.fault_not_done e) }
    faultRegs := { h.faultRegs with }
    flags := { h.flags with }
    channel := { h.channel with }
    result := h.result
    rounds := h.rounds }

theorem State.Inv.issue {s : State} (h : s.Inv) (w : Word) (hf : s.status.fault = false) :
    (issue w s).Inv where
  regs := h.regs
  status := ⟨fun _ => hf, fun _ => rfl, fun _ => rfl, fun _ => rfl, fun _ => rfl⟩
  faultRegs := ⟨h.faultRegs.clear, by simp [hf]⟩
  flags := { h.flags with }
  channel := ⟨by simp, h.channel.request⟩
  result := h.result
  rounds := h.rounds

/-- An answer is taken only where a request is outstanding, so while a command is in flight. -/
theorem State.Inv.answer {s : State} (h : s.Inv) (v : Nat) {q : DrawReq} (hq : s.drawReq = some q) :
    State.Inv { s with drawReq := none, draws := s.draws ++ [v] } where
  regs := h.regs
  status := { h.status with }
  faultRegs := { h.faultRegs with }
  flags := { h.flags with }
  channel := ⟨fun hb => by simp [(h.channel.quiet hb).1] at hq, by simp⟩
  result := h.result
  rounds := h.rounds

theorem State.Inv.turnEffect {s t : State} (h : s.Inv) (ht : TurnEffect s t) : t.Inv := by
  cases ht with
  | idle => exact h
  | command hb hc => exact h.commandEnd hb hc
  | access ha => exact h.hostAccess ha
  | issue w hb hf => exact h.issue w hf
  | answer v hq => exact h.answer v hq

theorem State.Inv.takeTurn {s t : State} (h : s.Inv) {u : Turn} (ht : takeTurn u s = .next t) : t.Inv := by
  cases hu : u.resets with
  | true =>
    rw [takeTurn_of_resets s hu] at ht
    cases ht
    exact inv_resetCore s
  | false =>
    obtain ⟨t', e, heff⟩ := takeTurn_effect s hu
    rw [e] at ht
    cases ht
    exact h.turnEffect heff

/-- Settles O12: each of the effects a turn can have keeps the invariant, and so does a reset. -/
theorem stepKeepsInvariant : Obligations.StepKeepsInvariant := by
  intro s t h ht
  obtain ⟨u, l, e, -⟩ := step_eq_takeTurn s
  rw [e] at ht
  exact (h.with_pending l).takeTurn ht

/-! ### Valid bits -/

theorem CommandEnd.isValid {s t : State} (h : CommandEnd s t) {r : Reg} (hr : s.isValid r = true) :
    t.isValid r = true := by
  cases h with
  | ok hu => exact hu.valid r hr
  | recoverable c => exact hr
  | fatal c => exact hr
  | waiting hv hn => exact hr

theorem TurnEffect.isValid {s t : State} (h : TurnEffect s t) {r : Reg} (hr : s.isValid r = true) :
    t.isValid r = true := by
  cases h with
  | idle => exact hr
  | command hb hc => exact hc.isValid hr
  | access ha => exact ha.valid r hr
  | issue w hb hf => exact hr
  | answer v hq => exact hr

/-- Settles O15: none of the effects of a turn that does not reset clears a valid bit. -/
theorem onlyResetClearsValidBits : Obligations.OnlyResetClearsValidBits := by
  intro s t r hs ht hr
  obtain ⟨u, l, e, hu⟩ := step_eq_takeTurn s
  obtain ⟨t', e', heff⟩ := takeTurn_effect { s with pending := l } (hu hs)
  rw [e, e'] at ht
  cases ht
  exact heff.isValid hr

/-! ### Reset -/

theorem atReset_resetCore (s : State) : AtReset (resetCore s) := by
  have hctrl : State.reset.ctrl.toWord = 0 := by decide
  have hstatus : State.reset.status.toWord = 0 := by decide
  have hflags : State.reset.flags.toWord = 0 := by decide
  refine ⟨fun r => ?_, hctrl, hstatus, rfl, rfl, rfl, rfl, hflags, rfl, rfl, rfl, rfl, rfl, rfl, rfl, rfl, rfl⟩
  simp [State.isValid]

/-- The state after reset is what a reset leaves of it. -/
theorem resetCore_reset : resetCore State.reset = State.reset := rfl

/-- Settles O11: the reset state is one that a reset leaves. -/
theorem resetStateMeetsInvariant : Obligations.ResetStateMeetsInvariant := by
  have h := atReset_resetCore State.reset
  have hinv := inv_resetCore State.reset
  rw [resetCore_reset] at h hinv
  exact ⟨h, hinv⟩

/-- Settles O13: both turns reset, so both leave `resetCore s`. -/
theorem resetFromAnyState : Obligations.ResetFromAnyState := by
  intro s d hd
  have hw : (Turn.hostWrite 2 d).resets = true := by simp [Turn.resets, hd]
  exact ⟨resetCore s, rfl, takeTurn_of_resets s hw, atReset_resetCore s, rfl, rfl⟩

end Sys2Proof.Machine
end

section
/-! SUPPORT. The content of an invalid register is unobservable: every operation, given two states that differ at most in
the contents of invalid registers, gives two states that again differ at most there. -/

namespace Sys2Proof.Machine

/-! ### The relation and the shared operations -/

/-- The state with other contents in its registers. -/
def State.withContents (s : State) (x : Vector Int 16) : State := { s with x := x }

/-- One of two related states is the other with other contents. -/
theorem SameButInvalid.eq_withContents {s t : State} (h : SameButInvalid s t) : ∃ x, s = t.withContents x :=
  ⟨s.x, h.1⟩

theorem SameButInvalid.refl (s : State) : SameButInvalid s s := ⟨rfl, fun _ _ => rfl⟩

section
variable {s : State} {x : Vector Int 16}

/-- An operation that neither reads nor writes the register file keeps the relation. -/
theorem SameButInvalid.map (h : SameButInvalid (s.withContents x) s) (f : State → State)
    (hf : f (s.withContents x) = (f s).withContents x) (hx : (f s).x = s.x) (hv : (f s).valid = s.valid) :
    SameButInvalid (f (s.withContents x)) (f s) := by
  refine ⟨by rw [hf]; rfl, fun r hr => ?_⟩
  have hr' : s.isValid r = true := by
    rw [hf] at hr
    rw [← isValid_congr hv]
    exact hr
  calc (f (s.withContents x)).reg r = (s.withContents x).reg r := by rw [hf]; rfl
    _ = s.reg r := h.2 r hr'
    _ = (f s).reg r := (reg_congr hx r).symm

theorem SameButInvalid.setReg (h : SameButInvalid (s.withContents x) s) (r : Reg) (v : Int) :
    SameButInvalid ((s.withContents x).setReg r v) (s.setReg r v) := by
  refine ⟨rfl, fun q hq => ?_⟩
  by_cases hqr : q = r
  · rw [hqr, reg_setReg_same, reg_setReg_same]
  · rw [isValid_setReg_ne _ _ hqr] at hq
    rw [reg_setReg_ne _ _ hqr, reg_setReg_ne _ _ hqr]
    exact h.2 q hq

theorem SameButInvalid.setRegs (ws : List (Reg × Int)) (h : SameButInvalid (s.withContents x) s) :
    SameButInvalid ((s.withContents x).setRegs ws) (s.setRegs ws) := by
  induction ws generalizing s x with
  | nil => exact h
  | cons w ws ih => exact ih (s := s.setReg w.1 w.2) (h.setReg w.1 w.2)

theorem SameButInvalid.completeFatal (h : SameButInvalid (s.withContents x) s) (c : FatalCode) :
    SameButInvalid (completeFatal c (s.withContents x)) (completeFatal c s) :=
  h.map _ rfl rfl rfl

theorem SameButInvalid.completeRecoverable (h : SameButInvalid (s.withContents x) s) (c : RecoverableCode) :
    SameButInvalid (completeRecoverable c (s.withContents x)) (completeRecoverable c s) :=
  h.map _ rfl rfl rfl

/-- A command is given a source's value only where that register is valid, so both states give it the same. -/
theorem SameButInvalid.withSource {ra : Reg} {k k' : Int → State} (h : SameButInvalid (s.withContents x) s)
    (hk : SameButInvalid (k (s.reg ra)) (k' (s.reg ra))) :
    SameButInvalid (withSource ra (s.withContents x) k) (withSource ra s k') := by
  cases hv : s.isValid ra with
  | false =>
    have hv' : (s.withContents x).isValid ra = false := hv
    rw [withSource_invalid k' hv, withSource_invalid k hv']
    exact h.completeFatal .uninit
  | true =>
    have hv' : (s.withContents x).isValid ra = true := hv
    rw [withSource_valid k' hv, withSource_valid k hv', h.2 ra hv']
    exact hk

theorem SameButInvalid.withSources2 {ra rb : Reg} {k k' : Int → Int → State} (h : SameButInvalid (s.withContents x) s)
    (hk : SameButInvalid (k (s.reg ra) (s.reg rb)) (k' (s.reg ra) (s.reg rb))) :
    SameButInvalid (withSources2 ra rb (s.withContents x) k) (withSources2 ra rb s k') :=
  h.withSource (h.withSource hk)

theorem SameButInvalid.withSources3 {ra rb rc : Reg} {k k' : Int → Int → Int → State}
    (h : SameButInvalid (s.withContents x) s)
    (hk : SameButInvalid (k (s.reg ra) (s.reg rb) (s.reg rc)) (k' (s.reg ra) (s.reg rb) (s.reg rc))) :
    SameButInvalid (withSources3 ra rb rc (s.withContents x) k) (withSources3 ra rb rc s k') :=
  h.withSource (h.withSource (h.withSource hk))

theorem SameButInvalid.ite {p : Prop} [Decidable p] {t t' u u' : State} (ht : SameButInvalid t t')
    (hu : SameButInvalid u u') : SameButInvalid (if p then t else u) (if p then t' else u') := by
  split
  · exact ht
  · exact hu

theorem SameButInvalid.withModulus {m : Int} {t t' : State} (h : SameButInvalid (s.withContents x) s)
    (ht : SameButInvalid t t') : SameButInvalid (withModulus m (s.withContents x) t) (withModulus m s t') :=
  .ite (h.completeFatal .badModulus) ht

/-- The write-back checks the values alone, which both states share. -/
theorem SameButInvalid.writeBack (h : SameButInvalid (s.withContents x) s) (ws : List (Reg × Int)) (f : Flags) :
    SameButInvalid (writeBack ws f (s.withContents x)) (writeBack ws f s) := by
  refine .ite ?_ (h.completeFatal .overflow)
  have hws := h.setRegs ws
  obtain ⟨y, hy⟩ := hws.eq_withContents
  rw [hy] at hws ⊢
  exact hws.map (fun u => completeOk { u with flags := f }) rfl rfl rfl

theorem SameButInvalid.writeResult (h : SameButInvalid (s.withContents x) s) (rd : Reg) (v : Int) :
    SameButInvalid (writeResult rd v (s.withContents x)) (writeResult rd v s) :=
  h.writeBack _ _

theorem SameButInvalid.writeSymbol (h : SameButInvalid (s.withContents x) s) (rd : Reg) (v j : Int) :
    SameButInvalid (writeSymbol rd v j (s.withContents x)) (writeSymbol rd v j s) :=
  h.writeBack _ _

theorem SameButInvalid.finishTest (h : SameButInvalid (s.withContents x) s) (n : Int) (rounds : Nat)
    {done done' : Bool → Nat → State}
    (hdone : ∀ b r, SameButInvalid (completeOk (done b r)) (completeOk (done' b r))) :
    SameButInvalid (finishTest n rounds (s.withContents x) done) (finishTest n rounds s done') := by
  have hdraws : (s.withContents x).draws = s.draws := rfl
  unfold Machine.finishTest
  rw [hdraws]
  cases isprob n rounds s.draws with
  | verdict b r => exact hdone b r
  | needDraw => exact h.map (requestDraw 2 (n - 1)) rfl rfl rfl
  | outOfRange => exact h.completeFatal .rngRange

/-- The writes and the completion of PCAND (R172). -/
theorem SameButInvalid.candidateVerdict (h : SameButInvalid (s.withContents x) s) (d : Nat) (b : Bool) (r : Nat) :
    SameButInvalid (completeOk (((s.withContents x).setHit d).setVerdict b r).countAttempt)
      (completeOk ((s.setHit d).setVerdict b r).countAttempt) :=
  h.map (fun u => completeOk ((u.setHit d).setVerdict b r).countAttempt) rfl (by simp) (by simp)

/-! ### Commands -/

/-- Every command takes related states to related states. -/
theorem SameButInvalid.exec (h : SameButInvalid (s.withContents x) s) (i : Instr) :
    ∃ t t', exec i (s.withContents x) = .next t ∧ exec i s = .next t' ∧ SameButInvalid t t' := by
  cases i with
  | nop => exact ⟨_, _, rfl, rfl, h.map completeOk rfl rfl rfl⟩
  | add => exact ⟨_, _, rfl, rfl, h.withSources2 (h.writeResult _ _)⟩
  | sub => exact ⟨_, _, rfl, rfl, h.withSources2 (h.writeResult _ _)⟩
  | addi => exact ⟨_, _, rfl, rfl, h.withSource (h.writeResult _ _)⟩
  | ldi => exact ⟨_, _, rfl, rfl, h.writeResult _ _⟩
  | mov => exact ⟨_, _, rfl, rfl, h.withSource (h.writeResult _ _)⟩
  | cmp ra rb =>
    exact ⟨_, _, rfl, rfl, h.withSources2
      (h.map (fun u => completeOk { u with flags := u.flags.setCompare (s.reg ra) (s.reg rb) }) rfl rfl rfl)⟩
  | cmpi ra imm =>
    exact ⟨_, _, rfl, rfl, h.withSource
      (h.map (fun u => completeOk { u with flags := u.flags.setCompare (s.reg ra) (simm imm) }) rfl rfl rfl)⟩
  | tst ra =>
    exact ⟨_, _, rfl, rfl, h.withSource
      (h.map (fun u => completeOk { u with flags := u.flags.setZNO (s.reg ra) }) rfl rfl rfl)⟩
  | mul => exact ⟨_, _, rfl, rfl, h.withSources2 (h.writeResult _ _)⟩
  | mulmod => exact ⟨_, _, rfl, rfl, h.withSources3 (h.withModulus (h.writeResult _ _))⟩
  | montmul =>
    exact ⟨_, _, rfl, rfl, h.withSources3 (h.withModulus (.ite (h.completeFatal .domain) (h.writeResult _ _)))⟩
  | montr2 => exact ⟨_, _, rfl, rfl, h.withSource (h.withModulus (h.writeResult _ _))⟩
  | modexp =>
    exact ⟨_, _, rfl, rfl, h.withSources3 (h.withModulus (.ite (h.completeFatal .negExponent) (h.writeResult _ _)))⟩
  | crypt =>
    exact ⟨_, _, rfl, rfl, h.withSources3 (h.withModulus (.ite (h.completeFatal .negExponent)
      (.ite (h.completeRecoverable .blockTooLarge) (h.writeResult _ _))))⟩
  | gcd => exact ⟨_, _, rfl, rfl, h.withSources2 (.ite (h.completeFatal .negOperand) (h.writeResult _ _))⟩
  | xgcd =>
    exact ⟨_, _, rfl, rfl, .ite (h.withSources2 (.ite (h.completeFatal .negOperand) (h.writeBack _ _)))
      (h.completeFatal .illegalCmd)⟩
  | modinv =>
    exact ⟨_, _, rfl, rfl, h.withSources2 (h.withModulus (.ite (h.completeFatal .negOperand)
      (.ite (h.completeRecoverable .noInverse) (h.writeResult _ _))))⟩
  | jacobi => exact ⟨_, _, rfl, rfl, h.withSources2 (.ite (h.completeFatal .domain) (h.writeSymbol _ _ _))⟩
  | jacobir => exact ⟨_, _, rfl, rfl, h.withSources2 (.ite (h.completeFatal .domain) (h.writeSymbol _ _ _))⟩
  | tdiv =>
    exact ⟨_, _, rfl, rfl, h.withSource (.ite (h.completeFatal .domain)
      (h.map (fun u => completeOk (u.setHit _)) rfl rfl rfl))⟩
  | tfilt => exact ⟨_, _, rfl, rfl, h.withSource (h.map (fun u => completeOk (u.setHit _)) rfl rfl rfl)⟩
  | ssround =>
    exact ⟨_, _, rfl, rfl, h.withSources2 (.ite (h.completeFatal .domain) (.ite (h.completeFatal .domain)
      (h.map (fun u => completeOk (u.setVerdict _ 1)) rfl rfl rfl)))⟩
  | ptest =>
    exact ⟨_, _, rfl, rfl, h.withSource (h.finishTest _ _ fun b r =>
      h.map (fun u => completeOk (u.setVerdict b r)) rfl rfl rfl)⟩
  | pcand =>
    exact ⟨_, _, rfl, rfl, h.withSource (.ite (h.candidateVerdict _ false 0)
      (h.finishTest _ _ fun b r => h.candidateVerdict 0 b r))⟩

theorem SameButInvalid.engineStep (h : SameButInvalid (s.withContents x) s) :
    ∃ t t', engineStep (s.withContents x) = .next t ∧ engineStep s = .next t' ∧ SameButInvalid t t' := by
  have hbusy : (s.withContents x).status.busy = s.status.busy := rfl
  have hfetch : fetch (s.withContents x) = fetch s := rfl
  unfold Machine.engineStep
  rw [hbusy, hfetch]
  split
  next =>
    cases fetch s with
    | ok i => exact h.exec i
    | error e => exact ⟨_, _, rfl, rfl, h.completeFatal .illegalCmd⟩
  next => exact ⟨_, _, rfl, rfl, h⟩

/-! ### The host port -/

/-- A window read shows the register only while it is valid. -/
theorem SameButInvalid.windowRead {w w' : Word} (h : SameButInvalid (s.withContents x) s)
    (hw : s.isValid s.rsel = true → w = w') :
    (windowRead (s.withContents x) w).1 = (windowRead s w').1 ∧
    SameButInvalid (windowRead (s.withContents x) w).2 (windowRead s w').2 := by
  have hcond : ((s.withContents x).status.busy || !(s.withContents x).isValid (s.withContents x).rsel) =
    (s.status.busy || !s.isValid s.rsel) := rfl
  unfold Machine.windowRead
  rw [hcond]
  split
  next => exact ⟨rfl, h.map (fun u => (unspecifiedRead u).2) rfl rfl rfl⟩
  next hc =>
    rw [Bool.not_eq_true, Bool.or_eq_false_iff, Bool.not_eq_false'] at hc
    exact ⟨hw hc.2, h⟩

theorem SameButInvalid.memRead (h : SameButInvalid (s.withContents x) s) (widx : WordIdx) :
    (memRead widx (s.withContents x)).1 = (memRead widx s).1 ∧
    SameButInvalid (memRead widx (s.withContents x)).2 (memRead widx s).2 := by
  have hparams : (s.withContents x).params = s.params := rfl
  have hrsel : (s.withContents x).rsel = s.rsel := rfl
  unfold Machine.memRead
  rw [hparams]
  cases mapReg s.params widx with
  | rsign => exact h.windowRead fun hv => by rw [hrsel, h.2 _ hv]
  | limb k => exact h.windowRead fun hv => by rw [hrsel, h.2 _ hv]
  | reserved => exact ⟨rfl, h.map hostError rfl rfl rfl⟩
  | _ => exact ⟨rfl, h⟩

theorem SameButInvalid.hostRead (h : SameButInvalid (s.withContents x) s) (widx : WordIdx) :
    SameButInvalid (hostRead widx (s.withContents x)) (hostRead widx s) := by
  obtain ⟨hword, hstate⟩ := h.memRead widx
  obtain ⟨y, hy⟩ := hstate.eq_withContents
  unfold Machine.hostRead
  rw [hword]
  rw [hy] at hstate ⊢
  exact hstate.map (fun u => { u with rdata := (Machine.memRead widx s).1 }) rfl rfl rfl

/-- A window write starts from the register only while it is valid, and from 0 else. -/
theorem SameButInvalid.windowBase_eq (h : SameButInvalid (s.withContents x) s) :
    (s.withContents x).windowBase = s.windowBase := by
  cases hv : s.isValid s.rsel with
  | false =>
    have hv' : (s.withContents x).isValid (s.withContents x).rsel = false := hv
    simp [State.windowBase, hv, hv']
  | true =>
    have hv' : (s.withContents x).isValid (s.withContents x).rsel = true := hv
    simp only [State.windowBase, hv, hv', if_true]
    exact h.2 _ hv'

theorem SameButInvalid.unlessBusy {t t' : State} (h : SameButInvalid (s.withContents x) s)
    (ht : SameButInvalid t t') : SameButInvalid (unlessBusy (s.withContents x) t) (unlessBusy s t') :=
  .ite (h.map hostError rfl rfl rfl) ht

theorem SameButInvalid.memWrite (h : SameButInvalid (s.withContents x) s) (widx : WordIdx) (d : Word) :
    SameButInvalid (memWrite widx d (s.withContents x)) (memWrite widx d s) := by
  have hparams : (s.withContents x).params = s.params := rfl
  unfold Machine.memWrite
  rw [hparams]
  cases mapReg s.params widx with
  | ctrl => exact .ite (.refl _) (h.map (fun u => { u with ctrl := ⟨d.getLsbD 0, d.getLsbD 1⟩ }) rfl rfl rfl)
  | status => exact h.map (writeStatus d) rfl rfl rfl
  | cmd => exact .ite (h.map hostError rfl rfl rfl) (h.map (issue d) rfl rfl rfl)
  | attempts => exact h.unlessBusy (h.map (fun u => { u with attempts := d }) rfl rfl rfl)
  | rsel => exact h.unlessBusy (h.map (fun u => { u with rsel := d.extractLsb' 0 4 }) rfl rfl rfl)
  | rsign =>
    refine h.unlessBusy ?_
    rw [writeRsign, writeRsign, h.windowBase_eq]
    exact h.setReg _ _
  | limb k =>
    refine h.unlessBusy ?_
    rw [writeLimb, writeLimb, h.windowBase_eq]
    exact h.setReg _ _
  | _ => exact h.map hostError rfl rfl rfl

/-! ### Every step -/

theorem SameButInvalid.takeTurn (h : SameButInvalid (s.withContents x) s) (u : Turn) :
    ∃ t t', takeTurn u (s.withContents x) = .next t ∧ takeTurn u s = .next t' ∧ SameButInvalid t t' := by
  cases u with
  | engine => exact h.engineStep
  | hostRead widx => exact ⟨_, _, rfl, rfl, h.hostRead widx⟩
  | hostWrite widx d => exact ⟨_, _, rfl, rfl, h.memWrite widx d⟩
  | answer v =>
    exact ⟨_, _, rfl, rfl,
      .ite (h.map (fun u => { u with drawReq := none, draws := u.draws ++ [v] }) rfl rfl rfl) h⟩
  | lateAnswer v => exact ⟨_, _, rfl, rfl, h⟩
  | hardReset => exact ⟨_, _, rfl, rfl, .refl _⟩

end

/-- Settles O16: the two states take the same turn, and each turn keeps the relation. -/
theorem invalidContentsUnobservable : Obligations.InvalidContentsUnobservable := by
  intro s' s h
  obtain ⟨x, rfl⟩ := h.eq_withContents
  have hpending : (s.withContents x).pending = s.pending := rfl
  unfold step
  rw [hpending]
  cases s.pending with
  | nil => exact h.engineStep
  | cons u l =>
    exact (h.map (fun t => { t with pending := l }) rfl rfl rfl).takeTurn (s := { s with pending := l }) u

end Sys2Proof.Machine
end

section
/-! SUPPORT. The register map as the host sees it (`10_state.md` R27 to R47): what a read of each offset returns, and what
a write of the window, of `STATUS`, `CTRL`, `ATTEMPTS` and `RSEL` leaves. -/

namespace Sys2Proof.Machine

/-! ### Reads, and the layouts they show -/

/-- A read that finds its word without a host error changes nothing but the word read. -/
theorem turn_hostRead_of_memRead {s : State} {widx : WordIdx} {w : Word} (h : memRead widx s = (w, s)) :
    turn (.hostRead widx) s = .next { s with rdata := w } := by
  rw [turn_eq_takeTurn, takeTurn, hostRead, h]

theorem turn_hostWrite_of_memWrite {s t : State} {widx : WordIdx} {d : Word} (h : memWrite widx d s = t) :
    turn (.hostWrite widx d) s = .next t := by
  rw [turn_eq_takeTurn, takeTurn, h]

theorem turn_hostRead_flags (s : State) : turn (.hostRead 8) s = .next { s with rdata := s.flags.toWord } :=
  turn_hostRead_of_memRead rfl

theorem turn_hostRead_status (s : State) : turn (.hostRead 3) s = .next { s with rdata := s.status.toWord } :=
  turn_hostRead_of_memRead rfl

theorem turn_hostRead_ctrl (s : State) : turn (.hostRead 2) s = .next { s with rdata := s.ctrl.toWord } :=
  turn_hostRead_of_memRead rfl

/-! The layouts of R27, R33 and R34: one bit a flag, and 0 in every bit above the last. -/

theorem Flags.toWord_bits (f : Flags) :
    f.toWord.getLsbD 0 = f.z ∧ f.toWord.getLsbD 1 = f.n ∧ f.toWord.getLsbD 2 = f.odd ∧ f.toWord.getLsbD 3 = f.lt ∧
    f.toWord.getLsbD 4 = f.eq ∧ f.toWord.getLsbD 5 = f.gt ∧ f.toWord.getLsbD 6 = f.div ∧
    f.toWord.getLsbD 7 = f.prime := by
  simp only [Flags.toWord, BitVec.getLsbD_append]
  simp

theorem Flags.toWord_jac (f : Flags) : f.toWord.extractLsb' 8 2 = f.jac := by
  apply BitVec.eq_of_getLsbD_eq
  intro i hi
  simp only [Flags.toWord, BitVec.getLsbD_append, BitVec.getLsbD_extractLsb']
  interval_cases i <;> simp

theorem Flags.toWord_high (f : Flags) : f.toWord.extractLsb' 10 22 = 0 := by
  apply BitVec.eq_of_getLsbD_eq
  intro i hi
  simp only [Flags.toWord, BitVec.getLsbD_append, BitVec.getLsbD_extractLsb']
  simp

theorem Status.toWord_bits (st : Status) :
    st.toWord.getLsbD 0 = st.busy ∧ st.toWord.getLsbD 1 = st.done ∧ st.toWord.getLsbD 2 = st.err ∧
    st.toWord.getLsbD 3 = st.fault ∧ st.toWord.getLsbD 4 = st.herr := by
  simp only [Status.toWord, BitVec.getLsbD_append]
  simp

theorem Status.toWord_high (st : Status) : st.toWord.extractLsb' 5 27 = 0 := by
  apply BitVec.eq_of_getLsbD_eq
  intro i hi
  simp only [Status.toWord, BitVec.getLsbD_append, BitVec.getLsbD_extractLsb']
  simp

theorem Ctrl.toWord_bits (c : Ctrl) : c.toWord.getLsbD 0 = c.ieDone ∧ c.toWord.getLsbD 1 = c.ieFault := by
  simp only [Ctrl.toWord, BitVec.getLsbD_append]
  simp

theorem Ctrl.toWord_high (c : Ctrl) : c.toWord.extractLsb' 2 30 = 0 := by
  apply BitVec.eq_of_getLsbD_eq
  intro i hi
  simp only [Ctrl.toWord, BitVec.getLsbD_append, BitVec.getLsbD_extractLsb']
  simp

/-- The enables taken from a word read back as its two low bits. -/
theorem Ctrl.toWord_of_bits (d : Word) : Ctrl.toWord ⟨d.getLsbD 0, d.getLsbD 1⟩ = d &&& 3 := by
  apply BitVec.eq_of_getLsbD_eq
  intro i hi
  simp only [Ctrl.toWord, BitVec.getLsbD_append, BitVec.getLsbD_and]
  interval_cases i <;> simp

/-- Settles O19: the word read is `Flags.toWord`, whose fields stand in the order of R27. -/
theorem flagsRegisterLayout : Obligations.FlagsRegisterLayout := by
  intro s
  obtain ⟨hz, hn, hodd, hlt, heq, hgt, hdiv, hprime⟩ := s.flags.toWord_bits
  exact ⟨_, turn_hostRead_flags s, rfl, hz, hn, hodd, hlt, heq, hgt, hdiv, hprime, s.flags.toWord_jac,
    s.flags.toWord_high⟩

/-- A write of `STATUS` clears the two bits that are written 1 (R34). -/
theorem writeStatus_eq (d : Word) (s : State) : writeStatus d s = { s with status := { s.status with
    done := if d.getLsbD 1 then false else s.status.done
    herr := if d.getLsbD 4 then false else s.status.herr } } := by
  unfold writeStatus
  cases d.getLsbD 1 <;> cases d.getLsbD 4 <;> simp

/-- Settles O20: the word read is `Status.toWord`; the write is `writeStatus`. -/
theorem statusRegisterLayoutAndClear : Obligations.StatusRegisterLayoutAndClear := by
  intro s d
  obtain ⟨hbusy, hdone, herr, hfault, hherr⟩ := s.status.toWord_bits
  refine ⟨⟨_, turn_hostRead_status s, rfl, hbusy, hdone, herr, hfault, hherr, s.status.toWord_high⟩, ?_⟩
  exact turn_hostWrite_of_memWrite (writeStatus_eq d s)

/-- Settles O21: without `SRST` the write sets the two enables alone. -/
theorem ctrlWriteDrivesInterruptLine : Obligations.CtrlWriteDrivesInterruptLine := by
  intro s d hd
  have hw : memWrite 2 d s = { s with ctrl := ⟨d.getLsbD 0, d.getLsbD 1⟩ } := by
    have hm : memWrite 2 d s = writeCtrl d s := rfl
    rw [hm, writeCtrl, hd]
    rfl
  refine ⟨_, turn_hostWrite_of_memWrite hw, rfl, ?_, rfl⟩
  rw [turn_hostRead_ctrl, Ctrl.toWord_of_bits]

theorem nlimbs_le (p : Params) : p.nlimbs ≤ 512 := by
  have := p.limbsAboveTwo.isLt
  unfold Params.nlimbs
  omega

theorem paramWord_eq (p : Params) : paramWord p = BitVec.ofNat 32 (0x0F100000 + p.nlimbs) := by
  have hlt : p.nlimbs < 2 ^ 16 := by have := nlimbs_le p; omega
  apply BitVec.eq_of_toNat_eq
  rw [paramWord, BitVec.toNat_append, BitVec.toNat_ofNat, BitVec.toNat_ofNat, Nat.mod_eq_of_lt hlt,
    ← Nat.shiftLeft_add_eq_or_of_lt hlt]
  simp
  omega

theorem mapReg_ptab (p : Params) (j : Fin 15) : mapReg p (BitVec.ofNat 10 (16 + j)) = .ptab j := by
  fin_cases j <;> rfl

/-- Settles O22: the three constants, word by word. -/
theorem constantRegistersRead : Obligations.ConstantRegistersRead := by
  intro s
  refine ⟨turn_hostRead_of_memRead rfl, turn_hostRead_of_memRead ?_, fun j => turn_hostRead_of_memRead ?_⟩
  · rw [← paramWord_eq]
    rfl
  · rw [memRead, mapReg_ptab]
    rfl

/-- Settles O23: each of these offsets names a register that a read returns as it stands. -/
theorem statusAndCounterRegistersRead : Obligations.StatusAndCounterRegistersRead := by
  intro s
  obtain ⟨hdone, hfault⟩ := s.ctrl.toWord_bits
  refine ⟨?_, _, turn_hostRead_ctrl s, rfl, hdone, hfault, s.ctrl.toWord_high⟩
  simp only [List.forall_mem_cons]
  refine ⟨?_, ?_, ?_, ?_, ?_, ?_, ?_, ?_, ?_, ?_, by simp⟩ <;> exact turn_hostRead_of_memRead rfl

/-! ### Writes -/

theorem unlessBusy_idle {s : State} (t : State) (h : s.status.busy = false) : unlessBusy s t = t := by
  simp [unlessBusy, h]

/-- Settles O24: both writes are allowed while idle. -/
theorem attemptsAndSelectorWrites : Obligations.AttemptsAndSelectorWrites := by
  intro s d hb
  have ha : memWrite 11 d s = { s with attempts := d } := unlessBusy_idle _ hb
  have hr : memWrite 14 d s = { s with rsel := d.extractLsb' 0 4 } := unlessBusy_idle _ hb
  refine ⟨turn_hostWrite_of_memWrite ha, _, turn_hostWrite_of_memWrite hr, rfl, ?_⟩
  simp

/-- Settles O28: an answer goes to the outstanding request; a late one goes nowhere. -/
theorem answerIsTakenOnlyWhenRequested : Obligations.AnswerIsTakenOnlyWhenRequested := by
  intro s v
  refine ⟨?_, rfl⟩
  rw [turn_eq_takeTurn, takeTurn]
  cases hq : s.drawReq with
  | none => rw [takeAnswer_none hq, if_pos rfl]
  | some q => rw [takeAnswer_some hq, if_neg (by simp)]

/-! ### The window -/

theorem onlyReg_setReg (rd : Reg) (v : Int) (s : State) : OnlyReg rd v s (s.setReg rd v) :=
  ⟨isValid_setReg_same s rd v, reg_setReg_same s rd v,
    fun _ hr => ⟨isValid_setReg_ne s v hr, reg_setReg_ne s v hr⟩⟩

theorem windowBase_eq_selected (s : State) : s.windowBase = selected s := rfl

theorem windowRead_visible {s : State} (w : Word) (hb : s.status.busy = false) (hv : s.isValid s.rsel = true) :
    windowRead s w = (w, s) := by
  simp [windowRead, hb, hv]

/-- The offset `0x800 + 4k` names limb k, for every k below `NLIMBS`. -/
theorem mapReg_window {p : Params} {k : Nat} (hk : k < p.nlimbs) : mapReg p (BitVec.ofNat 10 (512 + k)) = .limb k := by
  have hn : (BitVec.ofNat 10 (512 + k)).toNat = 512 + k := by
    have := nlimbs_le p
    rw [BitVec.toNat_ofNat]
    omega
  unfold mapReg
  rw [hn]
  split
  case h_17 =>
    rw [if_neg (by omega), if_pos ⟨by omega, by omega⟩, Nat.add_sub_cancel_left]
  all_goals omega

theorem limbOf_eq_digit (m k : Nat) : limbOf m k = BitVec.ofNat 32 (digit m k) := by
  rw [← toNat_limbOf, BitVec.ofNat_toNat, BitVec.setWidth_eq]

/-- The digits below the n-th make up the magnitude modulo `2^(32 n)`. -/
theorem sum_digits_eq_mod (m n : Nat) : ∑ k ∈ Finset.range n, digit m k * 2 ^ (32 * k) = m % 2 ^ (32 * n) := by
  induction n with
  | zero => simp [Nat.mod_one]
  | succ n ih => rw [Finset.sum_range_succ, ih, Nat.mul_succ, pow_add, Nat.mod_mul, digit, Nat.mul_comm (2 ^ (32 * n))]

/-- Settles O25: the window is visible, and a magnitude below `2^W` is the sum of its first `NLIMBS` digits. -/
theorem windowShowsSignAndLimbs : Obligations.WindowShowsSignAndLimbs := by
  intro s hs hb hv
  refine ⟨turn_hostRead_of_memRead (windowRead_visible _ hb hv), fun k hk => turn_hostRead_of_memRead ?_, ?_⟩
  · rw [memRead, mapReg_window hk, ← limbOf_eq_digit]
    exact windowRead_visible _ hb hv
  · rw [sum_digits_eq_mod]
    exact (Nat.mod_eq_of_lt (hs _ hv)).symm

/-- A digit depends only on what lies below the next digit. -/
theorem digit_congr_mod {m n j k : Nat} (h : m % 2 ^ (32 * k) = n % 2 ^ (32 * k)) (hj : j < k) :
    digit m j = digit n j := by
  have key (a : Nat) : digit a j = a % 2 ^ (32 * k) % 2 ^ (32 * (j + 1)) / 2 ^ (32 * j) := by
    rw [Nat.mod_mod_of_dvd _ (pow_dvd_pow 2 (by omega)), Nat.mul_succ, pow_add, Nat.mod_mul_right_div_self, digit]
  rw [key, key, h]

/-- Replacing limb k sets that digit and keeps every other. -/
theorem digit_replaceLimb (m k j : Nat) (d : Word) :
    digit (replaceLimb m k d) j = if j = k then d.toNat else digit m j := by
  rcases lt_trichotomy j k with h | h | h
  · rw [if_neg h.ne]
    exact digit_congr_mod (replaceLimb_mod m k d) h
  · rw [if_pos h, h, digit, replaceLimb_div, Nat.mul_add_mod', Nat.mod_eq_of_lt d.isLt]
  · rw [if_neg h.ne', digit, replaceLimb_div_of_lt m d h, digit]

/-- A signed magnitude is negative where a sign is asked for and the magnitude is not 0. -/
theorem signed_neg_iff (neg : Bool) (m : Nat) : signed neg m < 0 ↔ neg = true ∧ signed neg m ≠ 0 := by
  cases neg with
  | false => simp [signed]
  | true => simp [signed]; omega

/-- Settles O26: the write leaves the selected register with one digit replaced and the sign it had. -/
theorem limbWriteReplacesOneLimb : Obligations.LimbWriteReplacesOneLimb := by
  intro s k d hs hb hk
  have hw : memWrite (BitVec.ofNat 10 (512 + k)) d s = writeLimb k d s := by
    rw [memWrite, mapReg_window hk]
    exact unlessBusy_idle _ hb
  have hreg : (writeLimb k d s).reg s.rsel =
      signed (decide (selected s < 0)) (replaceLimb (selected s).natAbs k d) := reg_setReg_same s s.rsel _
  refine ⟨_, turn_hostWrite_of_memWrite hw, rfl, ?_, fun j => ?_, ?_, ?_⟩
  · rw [hreg]
    exact onlyReg_setReg _ _ _
  · rw [hreg, natAbs_signed, digit_replaceLimb]
  · rw [hreg, signed_neg_iff, decide_eq_true_iff]
  · rw [hreg, natAbs_signed]
    exact replaceLimb_lt hk (natAbs_windowBase_lt hs)

/-- Settles O27: the write leaves the selected register with the magnitude it had, signed by bit 0. -/
theorem signWriteKeepsMagnitude : Obligations.SignWriteKeepsMagnitude := by
  intro s d hb
  have hw : memWrite 15 d s = writeRsign d s := unlessBusy_idle _ hb
  have hsigned : (if d.getLsbD 0 then -|selected s| else |selected s|) =
      signed (d.getLsbD 0) s.windowBase.natAbs := by
    rw [signed, Int.natCast_natAbs, windowBase_eq_selected]
  refine ⟨_, turn_hostWrite_of_memWrite hw, rfl, ?_⟩
  rw [hsigned]
  exact onlyReg_setReg _ _ _

end Sys2Proof.Machine
end

section
/-! SUPPORT. The access rules of the host port (`20_memory.md` R63 to R67, `10_state.md` R48): which accesses are host
errors, and that a command in flight is out of the host's reach; and that every step answers a next state. -/

namespace Sys2Proof.Machine

/-! ### Every turn answers -/

theorem takeTurn_answers (u : Turn) (s : State) : ∃ t, takeTurn u s = .next t := by
  cases hu : u.resets with
  | true => exact ⟨_, takeTurn_of_resets s hu⟩
  | false =>
    obtain ⟨t, e, -⟩ := takeTurn_effect s hu
    exact ⟨t, e⟩

/-- Settles O10: a step is one agent's turn, and every turn answers. -/
theorem machineNeverStops : Obligations.MachineNeverStops := by
  intro s
  obtain ⟨u, l, e, -⟩ := step_eq_takeTurn s
  rw [e]
  exact takeTurn_answers u _

/-! ### A command in flight (R63, R65, R237) -/

theorem unlessBusy_busy {s : State} (t : State) (h : s.status.busy = true) : unlessBusy s t = hostError s := by
  simp [unlessBusy, h]

theorem turn_hostRead_eq (widx : WordIdx) (s : State) : turn (.hostRead widx) s = .next (hostRead widx s) := rfl

/-- A read changes `HERR`, the word read and the free-word count at most. -/
theorem hostRead_frame (widx : WordIdx) (s : State) : hostRead widx s = { s with
    status := { s.status with herr := (hostRead widx s).status.herr }
    rdata := (hostRead widx s).rdata, freeReads := (hostRead widx s).freeReads } := by
  unfold hostRead
  rcases memRead_state_cases widx s with e | e | e <;> rw [e] <;> rfl

/-- With a command in flight every write but those of `STATUS` and `CTRL` is a host error. -/
theorem memWrite_busy {s : State} (widx : WordIdx) (d : Word) (hb : s.status.busy = true) :
    memWrite widx d s = hostError s ∨ memWrite widx d s = writeStatus d s ∨
    (widx = 2 ∧ memWrite widx d s = writeCtrl d s) := by
  unfold memWrite
  cases hm : mapReg s.params widx with
  | ctrl => exact .inr (.inr ⟨eq_two_of_mapReg_ctrl hm, rfl⟩)
  | status => exact .inr (.inl rfl)
  | cmd => exact .inl (by simp [writeCmd, hb])
  | attempts | rsel | rsign | limb => exact .inl (unlessBusy_busy _ hb)
  | _ => exact .inl rfl

/-- Settles O17: a read has its frame in any state; of the writes a busy engine lets through, that of `STATUS` changes
`DONE` and `HERR`, and that of `CTRL`, when it does not reset, the two enables. -/
theorem hostCannotDisturbCommandInFlight : Obligations.HostCannotDisturbCommandInFlight := by
  intro s widx d hb
  refine ⟨⟨_, turn_hostRead_eq widx s, hostRead_frame widx s⟩, fun hr => ⟨_, turn_hostWrite_of_memWrite rfl, ?_⟩⟩
  rcases memWrite_busy widx d hb with e | e | ⟨rfl, e⟩
  · rw [e]
    rfl
  · rw [e]
    rfl
  · have hd : d.getLsbD 31 = false := by simpa [Turn.resets] using hr
    rw [e, writeCtrl, hd]
    rfl

/-! ### The offsets of the map (R30, R48) -/

/-- The word indices at which a register stands in the map. -/
def MapReg.At (p : Params) (n : Nat) : MapReg → Prop
  | .id => n = 0
  | .param => n = 1
  | .ctrl => n = 2
  | .status => n = 3
  | .cmd => n = 4
  | .result => n = 5
  | .faultcode => n = 6
  | .faultcmd => n = 7
  | .flags => n = 8
  | .rvalid => n = 9
  | .rounds => n = 10
  | .attempts => n = 11
  | .tdhit => n = 12
  | .cmdcnt => n = 13
  | .rsel => n = 14
  | .rsign => n = 15
  | .ptab j => n = j + 16 ∧ j ≤ 14
  | .limb k => n = k + 512 ∧ k < p.nlimbs
  | .reserved => 31 ≤ n ∧ n < 512 ∨ 512 + p.nlimbs ≤ n

theorem mapReg_at (p : Params) (widx : WordIdx) : (mapReg p widx).At p widx.toNat := by
  unfold mapReg
  generalize widx.toNat = n
  split
  case h_17 =>
    -- n is none of the sixteen indices named before
    simp only [imp_false] at *
    split
    · exact ⟨by omega, by omega⟩
    · split
      · exact ⟨by omega, by omega⟩
      · simp only [MapReg.At]
        omega
  all_goals rfl

/-- The two kinds of window offset, `RSIGN` and `LIMB[k]`. -/
def MapReg.isWindow : MapReg → Bool
  | .rsign | .limb _ => true
  | _ => false

/-- The registers whose write is a host error in a state: those that a busy engine (for `CMD` a faulted one
too) does not let be written, and the read-only and reserved ones (R65 (a), (b), (c), (f), (g)). -/
def MapReg.refusesWrite (s : State) : MapReg → Bool
  | .ctrl | .status => false
  | .cmd => s.status.busy || s.status.fault
  | .attempts | .rsel | .rsign | .limb _ => s.status.busy
  | _ => true

/-- Each rule of the port about offsets, as one about the register an offset names: the one walk through the map. -/
theorem portRules_of_mapReg (s : State) (widx : WordIdx) :
    (isReserved s.params widx = true ↔ mapReg s.params widx = .reserved) ∧
    ((widx == 15 || isLimb s.params widx) = true ↔ (mapReg s.params widx).isWindow = true) ∧
    (isForbiddenWrite s widx = true ↔ (mapReg s.params widx).refusesWrite s = true) := by
  have h := mapReg_at s.params widx
  simp only [isForbiddenWrite, isReserved, isLimb, Bool.or_eq_true, Bool.and_eq_true, beq_iff_eq,
    decide_eq_true_iff, List.contains_iff_mem, List.mem_cons, ← BitVec.toNat_inj]
  generalize mapReg s.params widx = r at h ⊢
  generalize widx.toNat = n at h ⊢
  have hlow : ∀ m < 512, ¬512 + s.params.nlimbs ≤ m := by omega
  cases r with
  | ptab j =>
    obtain ⟨rfl, hj⟩ := h
    simp [MapReg.isWindow, MapReg.refusesWrite, hj]
    omega
  | limb k =>
    obtain ⟨rfl, hk⟩ := h
    have hhigh : k + 512 < 512 + s.params.nlimbs := by omega
    simp [MapReg.isWindow, MapReg.refusesWrite, hhigh, hhigh.not_ge]
  | reserved =>
    simp only [MapReg.At] at h
    simp [MapReg.isWindow, MapReg.refusesWrite]
    omega
  | _ =>
    subst h
    simp [MapReg.isWindow, MapReg.refusesWrite, hlow]

theorem isReserved_iff (s : State) (widx : WordIdx) :
    isReserved s.params widx = true ↔ mapReg s.params widx = .reserved := by
  obtain ⟨h, -, -⟩ := portRules_of_mapReg s widx
  exact h

theorem isForbiddenRead_iff (s : State) (widx : WordIdx) : isForbiddenRead s widx = true ↔
    (mapReg s.params widx).isWindow = true ∧ (s.status.busy || !s.isValid s.rsel) = true := by
  obtain ⟨-, hw, -⟩ := portRules_of_mapReg s widx
  rw [isForbiddenRead, Bool.and_eq_true, hw]

theorem isForbiddenWrite_iff (s : State) (widx : WordIdx) :
    isForbiddenWrite s widx = true ↔ (mapReg s.params widx).refusesWrite s = true := by
  obtain ⟨-, -, h⟩ := portRules_of_mapReg s widx
  exact h

/-! ### Host errors (R65, R67) -/

theorem memRead_reserved {s : State} {widx : WordIdx} (h : mapReg s.params widx = .reserved) :
    memRead widx s = (0, hostError s) := by
  rw [memRead, h]

theorem memRead_window {s : State} {widx : WordIdx} (h : (mapReg s.params widx).isWindow = true) :
    ∃ w, memRead widx s = windowRead s w := by
  unfold memRead
  cases hm : mapReg s.params widx with
  | rsign | limb k => exact ⟨_, rfl⟩
  | _ =>
    rw [hm] at h
    cases h

/-- The registers outside the window are read as they stand. -/
theorem memRead_state_of_plain {s : State} {widx : WordIdx} (hr : mapReg s.params widx ≠ .reserved)
    (hw : (mapReg s.params widx).isWindow = false) : (memRead widx s).2 = s := by
  unfold memRead
  cases hm : mapReg s.params widx with
  | reserved => exact absurd hm hr
  | rsign | limb k =>
    rw [hm] at hw
    cases hw
  | _ => rfl

/-- Outside R65's list a read leaves the state alone. -/
theorem memRead_state_of_allowed {s : State} {widx : WordIdx} (hr : ¬isReserved s.params widx = true)
    (hf : ¬isForbiddenRead s widx = true) : (memRead widx s).2 = s := by
  rw [isReserved_iff] at hr
  rw [isForbiddenRead_iff, not_and] at hf
  cases hw : (mapReg s.params widx).isWindow with
  | false => exact memRead_state_of_plain hr hw
  | true =>
    obtain ⟨w, e⟩ := memRead_window hw
    rw [e, windowRead, if_neg (hf hw)]

theorem memRead_forbidden {s : State} {widx : WordIdx} (hf : isForbiddenRead s widx = true) :
    memRead widx s = unspecifiedRead s := by
  obtain ⟨hw, hbv⟩ := (isForbiddenRead_iff s widx).1 hf
  obtain ⟨w, e⟩ := memRead_window hw
  rw [e, windowRead, if_pos hbv]

theorem memWrite_forbidden {s : State} {widx : WordIdx} (d : Word) (h : isForbiddenWrite s widx = true) :
    memWrite widx d s = hostError s := by
  rw [isForbiddenWrite_iff] at h
  unfold memWrite
  cases hm : mapReg s.params widx with
  | cmd =>
    rw [hm] at h
    exact if_pos h
  | attempts | rsel | rsign | limb k =>
    rw [hm] at h
    exact unlessBusy_busy _ h
  | ctrl | status =>
    rw [hm] at h
    cases h
  | _ => rfl

/-- No write outside R65's list sets `HERR`. -/
theorem herr_of_memWrite_allowed {s : State} {widx : WordIdx} {d : Word} (h : ¬isForbiddenWrite s widx = true)
    (ht : (memWrite widx d s).status.herr = true) : s.status.herr = true := by
  rw [isForbiddenWrite_iff] at h
  unfold memWrite at ht
  cases hm : mapReg s.params widx with
  | ctrl =>
    simp only [hm, writeCtrl] at ht
    split at ht
    · cases ht
    · exact ht
  | status =>
    simp only [hm, writeStatus, Bool.and_eq_true] at ht
    exact ht.1
  | cmd =>
    rw [hm] at h
    have hbf : ¬(s.status.busy || s.status.fault) = true := h
    simp only [hm, writeCmd, if_neg hbf] at ht
    exact ht
  | attempts | rsel | rsign | limb k =>
    rw [hm] at h
    have hb : s.status.busy = false := Bool.eq_false_of_not_eq_true h
    simp only [hm, unlessBusy_idle _ hb] at ht
    exact ht
  | _ =>
    rw [hm] at h
    exact absurd rfl h

/-- Settles O18: the register an offset names decides whether an access is a host error. -/
theorem hostErrorsAndSideEffects : Obligations.HostErrorsAndSideEffects := by
  intro s widx d
  refine ⟨⟨_, turn_hostRead_eq widx s, ?_⟩, ⟨_, turn_hostWrite_of_memWrite rfl, ?_⟩⟩
  · rw [hostRead]
    split
    next hr =>
      rw [memRead_reserved ((isReserved_iff s widx).1 hr)]
      rfl
    next hr =>
      split
      next hf =>
        rw [memRead_forbidden hf]
        rfl
      next hf => rw [memRead_state_of_allowed hr hf]
  · split
    next hf => exact memWrite_forbidden d hf
    next hf => exact herr_of_memWrite_allowed hf

end Sys2Proof.Machine
end

section
/-! SUPPORT. The encoding (`30_encoding.md`): what the decoder answers is said once by the row of the opcode map a word
matches; the round trips and the illegal words are read off that. -/

namespace Sys2Proof

/-! ### The row a word matches -/

/-- The word has the row's opcode, and zero in each of the row's must-be-zero fields (R86). -/
def OpRow.Matches (r : OpRow) (w : Word) : Prop := opcodeOf w = r.op ∧ ∀ f ∈ r.zero, regField f w = 0

/-- Each opcode has one row (R85). -/
theorem find?_op_of_mem {r : OpRow} (hr : r ∈ opRows) : opRows.find? (fun q => q.op == r.op) = some r := by
  fin_cases hr <;> rfl

/-- A word that matches a row decodes to the command its used fields make, unless that is an XGCD with coinciding
destinations (R87 (c), R88). -/
theorem decode_of_matches {r : OpRow} {w : Word} (hr : r ∈ opRows) (h : r.Matches w) :
    decode w = if wellFormed (r.build w) then .ok (r.build w) else .error .coincidingDestinations := by
  obtain ⟨hop, hz⟩ := h
  have hall : r.zero.all (fun f => regField f w == 0) = true := List.all_eq_true.2 fun f hf => beq_iff_eq.2 (hz f hf)
  simp only [decode, hop, find?_op_of_mem hr, hall, if_true]

/-- A word either matches a row of the opcode map or is refused (R87, R88). -/
theorem exists_matches_or_decode_error (w : Word) :
    (∃ r ∈ opRows, r.Matches w) ∨ (∀ r ∈ opRows, ¬r.Matches w) ∧ ∃ e, decode w = .error e := by
  by_cases h : ∃ r ∈ opRows, r.Matches w
  · exact .inl h
  · refine .inr ⟨fun r hr hm => h ⟨r, hr, hm⟩, ?_⟩
    unfold decode
    split
    next => exact ⟨_, rfl⟩
    next r hf =>
      have hop : opcodeOf w = r.op := (beq_iff_eq.1 (List.find?_some hf :)).symm
      split
      next hz =>
        exact absurd ⟨r, List.mem_of_find?_eq_some hf, hop, fun f hf => beq_iff_eq.1 (List.all_eq_true.1 hz f hf)⟩ h
      next => exact ⟨_, rfl⟩

/-- A decoded word matches the row that makes its command. -/
theorem exists_matches_of_decode_ok {w : Word} {i : Instr} (h : decode w = .ok i) :
    ∃ r ∈ opRows, r.Matches w ∧ r.build w = i ∧ wellFormed i = true := by
  rcases exists_matches_or_decode_error w with ⟨r, hr, hm⟩ | ⟨-, e, he⟩
  · rw [decode_of_matches hr hm] at h
    split at h
    next hwf =>
      obtain rfl : r.build w = i := by simpa using h
      exact ⟨r, hr, hm, rfl, hwf⟩
    next => cases h
  · simp [he] at h

/-! ### The round trips (R85, R88) -/

theorem opcodeOf_encode (i : Instr) : opcodeOf (encode i) = Laws.opcode i := by
  cases i <;> simp [encode, Laws.opcode]

/-- The row of a command's opcode finds zeros where it must in the command's word, and reads the operands back. -/
theorem exists_row_of_instr (i : Instr) : ∃ r, opRows.find? (fun r => r.op == Laws.opcode i) = some r ∧
    (∀ f ∈ r.zero, regField f (encode i) = 0) ∧ r.build (encode i) = i := by
  cases i <;> exact ⟨_, rfl, by simp [encode], by simp [encode]⟩

/-- The word of a command matches a row that makes the command of it. -/
theorem exists_matches_encode (i : Instr) : ∃ r ∈ opRows, r.Matches (encode i) ∧ r.build (encode i) = i := by
  obtain ⟨r, hf, hz, hb⟩ := exists_row_of_instr i
  have hop : r.op = Laws.opcode i := beq_iff_eq.1 (List.find?_some hf :)
  exact ⟨r, List.mem_of_find?_eq_some hf, ⟨by rw [opcodeOf_encode, hop], hz⟩, hb⟩

/-- Settles O2: the word of a command matches the command's row, whose used fields are the operands. -/
theorem decodeOfEncodeIsIdentity : Obligations.DecodeOfEncodeIsIdentity := by
  intro i hwf
  obtain ⟨r, hr, hm, hb⟩ := exists_matches_encode i
  rw [decode_of_matches hr hm, hb, if_pos hwf]

/-- The immediate of a word is its four low register fields (R81, R82). -/
theorem packI_immField (op : BitVec 8) (rd ra : Reg) (w : Word) :
    packI op rd ra (immField w) =
      packR op rd ra (regField .rb w) (regField .rc w) (regField .rx w) (regField .ry w) := by
  apply BitVec.eq_of_getLsbD_eq
  intro i hi
  simp only [packI, packR, immField, regField, FieldName.low, BitVec.getLsbD_extractLsb', BitVec.getLsbD_append]
  interval_cases i <;> simp

/-- A register field as the row reads it: zero where the row has a must-be-zero field. -/
def OpRow.field (r : OpRow) (f : FieldName) (w : Word) : Reg := if f ∈ r.zero then 0 else regField f w

/-- The word of the command a row reads from `w`: the row's opcode, and `w`'s fields with the must-be-zero ones
cleared. -/
theorem encode_build_eq_packR {r : OpRow} (hr : r ∈ opRows) (w : Word) : encode (r.build w) =
    packR r.op (r.field .rd w) (r.field .ra w) (r.field .rb w) (r.field .rc w) (r.field .rx w) (r.field .ry w) := by
  fin_cases hr <;> simp [encode, OpRow.field, packI_immField]

theorem OpRow.Matches.field_eq {r : OpRow} {w : Word} (h : r.Matches w) (f : FieldName) :
    r.field f w = regField f w := by
  rw [OpRow.field]
  split
  next hf => exact (h.2 f hf).symm
  next => rfl

/-- A matching word is the word of the command the row reads from it: the row leaves no bit of it out. -/
theorem OpRow.Matches.encode_build {r : OpRow} {w : Word} (hr : r ∈ opRows) (h : r.Matches w) :
    encode (r.build w) = w := by
  simp only [encode_build_eq_packR hr, h.field_eq, ← h.1, packR_fields]

/-- Settles O3: the row a decoded word matches accounts for all of its bits. -/
theorem decodedWordIsItsEncoding : Obligations.DecodedWordIsItsEncoding := by
  intro w i h
  obtain ⟨r, hr, hm, rfl, hwf⟩ := exists_matches_of_decode_ok h
  exact ⟨hm.encode_build hr, hwf⟩

/-! ### The match and the mask of a row (R86) -/

/-- Words are equal when their fields are (R80, R81). -/
theorem word_eq_iff_fields (w v : Word) :
    w = v ↔ opcodeOf w = opcodeOf v ∧ ∀ f, regField f w = regField f v := by
  refine ⟨fun h => by simp [h], fun ⟨hop, hf⟩ => ?_⟩
  rw [← packR_fields w, ← packR_fields v, hop, hf, hf, hf, hf, hf, hf]

theorem opcodeOf_and (w v : Word) : opcodeOf (w &&& v) = opcodeOf w &&& opcodeOf v := BitVec.extractLsb'_and

theorem regField_and (f : FieldName) (w v : Word) : regField f (w &&& v) = regField f w &&& regField f v :=
  BitVec.extractLsb'_and

theorem opcodeOf_append (op : BitVec 8) (v : BitVec 24) : opcodeOf (op ++ v) = op :=
  BitVec.extractLsb'_append_eq_left

theorem regField_append (op : BitVec 8) (v : BitVec 24) (f : FieldName) :
    regField f (op ++ v) = v.extractLsb' f.low 4 :=
  BitVec.extractLsb'_append_eq_of_add_le (by cases f <;> decide)

theorem opcodeOf_mask {r : OpRow} (hr : r ∈ opRows) : opcodeOf r.mask = BitVec.allOnes 8 := by
  fin_cases hr <;> rfl

theorem regField_mask {r : OpRow} (hr : r ∈ opRows) (f : FieldName) :
    regField f r.mask = if f ∈ r.zero then BitVec.allOnes 4 else 0 := by
  cases f <;> fin_cases hr <;> rfl

/-- A word passes a row's mask test exactly when its fields match the row. -/
theorem and_mask_eq_iff {r : OpRow} (hr : r ∈ opRows) (w : Word) : w &&& r.mask = r.op ++ 0#24 ↔ r.Matches w := by
  have hop : opcodeOf (w &&& r.mask) = opcodeOf (r.op ++ 0#24) ↔ opcodeOf w = r.op := by
    rw [opcodeOf_and, opcodeOf_mask hr, opcodeOf_append, BitVec.and_allOnes]
  have hf (f) : regField f (w &&& r.mask) = regField f (r.op ++ 0#24) ↔ (f ∈ r.zero → regField f w = 0) := by
    rw [regField_and, regField_mask hr, regField_append, BitVec.extractLsb'_zero]
    split
    next hz =>
      rw [BitVec.and_allOnes]
      exact ⟨fun h _ => h, fun h => h hz⟩
    next hz => simp [hz]
  rw [word_eq_iff_fields, hop, forall_congr' hf, OpRow.Matches]

/-- The table of spec/opcode_table.json is the opcode map's: each row's match is its opcode alone. -/
theorem mem_matchMask {p : Word × Word} : p ∈ matchMask ↔ ∃ r ∈ opRows, (r.op ++ 0#24, r.mask) = p := by
  have h : matchMask = opRows.map fun r => (r.op ++ 0#24, r.mask) := by decide
  rw [h, List.mem_map]

/-- A word fails every mask test of the table exactly when it matches no row. -/
theorem forall_matchMask_ne_iff (w : Word) :
    (∀ p ∈ matchMask, w &&& p.2 ≠ p.1) ↔ ∀ r ∈ opRows, ¬r.Matches w := by
  constructor
  · intro h r hr hm
    exact h _ (mem_matchMask.2 ⟨r, hr, rfl⟩) ((and_mask_eq_iff hr w).2 hm)
  · intro h p hp e
    obtain ⟨r, hr, rfl⟩ := mem_matchMask.1 hp
    exact h r hr ((and_mask_eq_iff hr w).1 e)

/-! ### The illegal words (R87) -/

/-- The three destination fields of an XGCD word are not pairwise different. -/
def DestinationsCoincide (w : Word) : Prop :=
  regField .rd w = regField .rx w ∨ regField .rd w = regField .ry w ∨ regField .rx w = regField .ry w

/-- Only the row of XGCD makes an ill-formed command, from coinciding destinations. -/
theorem wellFormed_build_eq_false_iff {r : OpRow} (hr : r ∈ opRows) (w : Word) :
    wellFormed (r.build w) = false ↔ r.op = 0x21 ∧ DestinationsCoincide w := by
  fin_cases hr <;> simp [wellFormed, DestinationsCoincide, or_iff_not_imp_left]

/-- A word that matches a row passes the mask test of XGCD exactly when the row is XGCD's. -/
theorem and_xgcdMask_eq_iff {r : OpRow} {w : Word} (hr : r ∈ opRows) (h : r.Matches w) :
    w &&& 0xFF000F00 = 0x21000000 ↔ r.op = 0x21 := by
  obtain ⟨x, hx, hop, hmask⟩ : ∃ x ∈ opRows, x.op = 0x21 ∧ x.mask = 0xFF000F00 := by decide
  have hw : w &&& 0xFF000F00 = 0x21000000 ↔ x.Matches w := by
    rw [← and_mask_eq_iff hx, hmask, hop]; rfl
  rw [hw]
  constructor
  · intro hxw
    rw [← h.1, hxw.1, hop]
  · intro hrop
    have e : some x = some r := by
      rw [← find?_op_of_mem hx, ← find?_op_of_mem hr, hop, hrop]
    exact Option.some.inj e ▸ h

/-- A word that matches a row is refused exactly when the row is XGCD's and the destinations coincide. -/
theorem decode_error_iff_of_matches {r : OpRow} {w : Word} (hr : r ∈ opRows) (h : r.Matches w) :
    (∃ e, decode w = .error e) ↔ w &&& 0xFF000F00 = 0x21000000 ∧ DestinationsCoincide w := by
  rw [and_xgcdMask_eq_iff hr h, ← wellFormed_build_eq_false_iff hr, decode_of_matches hr h]
  cases wellFormed (r.build w) <;> simp

/-- Settles O4: a word that matches no row is illegal on both sides; one that does, only as an XGCD. -/
theorem illegalWordsAreExactlyTheSpecs : Obligations.IllegalWordsAreExactlyTheSpecs := by
  intro w
  rw [forall_matchMask_ne_iff]
  rcases exists_matches_or_decode_error w with ⟨r, hr, hm⟩ | ⟨hnone, herr⟩
  · rw [decode_error_iff_of_matches hr hm]
    exact (or_iff_right fun hnone => hnone r hr hm).symm
  · exact iff_of_true herr (.inl hnone)

/-- Settles O1: the decoder evaluated on the spec's words. -/
theorem specExampleWordsDecode : Obligations.SpecExampleWordsDecode := by
  unfold Obligations.SpecExampleWordsDecode
  decide

end Sys2Proof

namespace Sys2Proof.Machine

theorem engineStep_of_decode_error {s : State} {e : Illegal} (hb : s.status.busy = true)
    (h : decode s.cmd = .error e) : engineStep s = .next (illegalWord e s) := by
  rw [engineStep, if_pos hb, fetch, h]

/-- Settles O7: whichever its reason, an illegal word is the fatal completion with `ILLEGAL_CMD`. -/
theorem illegalWordFaults : Obligations.IllegalWordFaults := by
  intro s e hb h
  calc turn .engine s = engineStep s := turn_eq_takeTurn .engine s
    _ = .next (completeFatal .illegalCmd s) := engineStep_of_decode_error hb h
    _ = .next (endedFatal 1 s) := by rw [completeFatal_eq]; rfl

end Sys2Proof.Machine
end

section
/-! SUPPORT. bigint_adder (`40_bigint_adder.md`) and MUL: each command is a source check and then the write-back of one
exact result, so how these two end together, said once, is how each of the commands ends. -/

namespace Sys2Proof.Machine

/-! ### The write-back of one result (R186, R189) -/

theorem wroteResult_writeResult {rd : Reg} {v : Int} {s : State} (h : v.natAbs < 2 ^ s.params.W) :
    WroteResult rd v s (writeResult rd v s) := by
  rw [writeResult_fits h, WroteResult, znoOf_eq]
  exact wroteReg_writeBack

/-- The narrowest register has 64 bits, so an unsigned immediate fits every register (R7, R84). -/
theorem uimm_lt (imm : Imm16) (p : Params) : uimm imm < 2 ^ p.W :=
  imm.isLt.trans_le (Nat.pow_le_pow_right (by decide) (by simp only [Params.W, Params.nlimbs]; omega))

/-! ### Source checks (R188) -/

theorem withSources2_eq (ra rb : Reg) (s : State) (k : Int → Int → State) :
    withSources2 ra rb s k =
      if s.isValid ra && s.isValid rb then k (s.reg ra) (s.reg rb) else completeFatal .uninit s := by
  rcases withSources2_cases ra rb s k with ⟨hv, hk⟩ | ⟨hv, hk⟩
  · rw [hk, if_neg (by simpa using hv)]
  · rw [hk, if_pos (by simpa using hv)]

/-! ### The commands -/

/-- A command that checks its sources (`b`: all are valid) and then writes back `v` ends with `UNINIT`, `OVERFLOW` or
exactly `v`. The range is decided before the goal is an `if` on it: there the elaborator would evaluate `2 ^ W`. -/
theorem checkedResult_outcome {o : Host.Outcome State Fault Refusal} {b : Bool} {rd : Reg} {v : Int} {s : State}
    (ho : o = .next (if b then writeResult rd v s else completeFatal .uninit s)) :
    ∃ t, o = .next t ∧
      if b then if 2 ^ s.params.W ≤ v.natAbs then t = endedFatal 5 s else WroteResult rd v s t
      else t = endedFatal 2 s := by
  subst ho
  cases b with
  | false => exact ⟨endedFatal 2 s, rfl, by rw [if_neg Bool.false_ne_true]⟩
  | true =>
    by_cases h : 2 ^ s.params.W ≤ v.natAbs
    · exact ⟨endedFatal 5 s, congrArg _ (writeResult_overflow h), by rw [if_pos rfl, if_pos h]⟩
    · refine ⟨writeResult rd v s, rfl, ?_⟩
      rw [if_pos rfl, if_neg h]
      exact wroteResult_writeResult (not_le.1 h)

/-- ADD, SUB and MUL differ in the operation `op` alone. -/
theorem binaryResult_outcome (op : Int → Int → Int) {o : Host.Outcome State Fault Refusal} {rd ra rb : Reg} {s : State}
    (ho : o = .next (withSources2 ra rb s fun a b => writeResult rd (op a b) s)) :
    ∃ t, o = .next t ∧
      if s.isValid ra && s.isValid rb then
        if 2 ^ s.params.W ≤ (op (s.reg ra) (s.reg rb)).natAbs then t = endedFatal 5 s
        else WroteResult rd (op (s.reg ra) (s.reg rb)) s t
      else t = endedFatal 2 s :=
  checkedResult_outcome (ho.trans (congrArg _ (withSources2_eq ..)))

/-- Settles O31: each of the three words is that of its command, and each command is the write-back of its operation's
result. -/
theorem addSubMulAreExactOrFault : Obligations.AddSubMulAreExactOrFault := by
  intro rd ra rb s
  refine ⟨decodeOfEncodeIsIdentity (.add rd ra rb) rfl, decodeOfEncodeIsIdentity (.sub rd ra rb) rfl,
    decodeOfEncodeIsIdentity (.mul rd ra rb) rfl, ?_⟩
  simp only [List.forall_mem_cons, List.not_mem_nil, false_imp_iff, implies_true, and_true]
  exact ⟨binaryResult_outcome (· + ·) rfl, binaryResult_outcome (· - ·) rfl, binaryResult_outcome (· * ·) rfl⟩

/-- Settles O32: after the source check, ADDI is the write-back of the sum with the signed immediate. -/
theorem addiAddsSignedImmediate : Obligations.AddiAddsSignedImmediate := fun rd ra imm _ =>
  ⟨decodeOfEncodeIsIdentity (.addi rd ra imm) rfl, checkedResult_outcome rfl⟩

/-- Settles O33: the immediate fits the register, so the write-back cannot fault. -/
theorem ldiLoadsUnsignedImmediate : Obligations.LdiLoadsUnsignedImmediate := fun rd imm s =>
  ⟨decodeOfEncodeIsIdentity (.ldi rd imm) rfl, _, rfl, wroteResult_writeResult (uimm_lt imm s.params)⟩

/-- Settles O34: what a valid source holds is in range, so the write-back cannot fault. -/
theorem movCopies : Obligations.MovCopies := by
  intro rd ra s hs
  refine ⟨decodeOfEncodeIsIdentity (.mov rd ra) rfl, _, rfl, ?_⟩
  rcases withSource_cases ra s fun a => writeResult rd a s with ⟨hv, hk⟩ | ⟨hv, hk⟩
  · rw [if_neg (by simp [hv]), hk]
    exact completeFatal_eq .uninit s
  · rw [if_pos hv, hk]
    exact wroteResult_writeResult (hs ra hv)

end Sys2Proof.Machine
end

section
/-! SUPPORT. bigint_comparator (`41_bigint_comparator.md`): each command is a source check and then an OK completion
whose one write is the flags, so what such a command leaves is said once for one source and once for two. -/

namespace Sys2Proof.Machine

theorem withSource_flags (ra : Reg) (s : State) (f : Int → Flags) :
    withSource ra s (fun a => completeOk { s with flags := f a }) =
      if s.isValid ra then { endedOk s with flags := f (s.reg ra) } else endedFatal 2 s := by
  rcases withSource_cases ra s fun a => completeOk { s with flags := f a } with ⟨hv, hk⟩ | ⟨hv, hk⟩
  · rw [hk, if_neg (by simp [hv])]
    exact completeFatal_eq .uninit s
  · rw [hk, if_pos hv]
    exact completeOk_eq _

theorem withSources2_flags (ra rb : Reg) (s : State) (f : Int → Int → Flags) :
    withSources2 ra rb s (fun a b => completeOk { s with flags := f a b }) =
      if s.isValid ra && s.isValid rb then { endedOk s with flags := f (s.reg ra) (s.reg rb) } else endedFatal 2 s := by
  rw [withSources2_eq]
  exact ite_congr rfl (fun _ => completeOk_eq _) (fun _ => completeFatal_eq .uninit s)

/-- Settles O35: after the source check, CMP and CMPI are an OK completion that writes the three-way compare. -/
theorem compareSetsThreeFlags : Obligations.CompareSetsThreeFlags := by
  intro ra rb imm s
  refine ⟨decodeOfEncodeIsIdentity (.cmp ra rb) rfl, decodeOfEncodeIsIdentity (.cmpi ra imm) rfl, ?_, ?_⟩
  · exact congrArg Host.Outcome.next (withSources2_flags ra rb s s.flags.setCompare)
  · exact congrArg Host.Outcome.next (withSource_flags ra s (s.flags.setCompare · (simm imm)))

/-- Settles O36: after the source check, TST is an OK completion that writes the sign and the parity. -/
theorem tstSetsSignAndParity : Obligations.TstSetsSignAndParity := by
  intro ra s
  refine ⟨decodeOfEncodeIsIdentity (.tst ra) rfl, ?_⟩
  rw [znoOf_eq]
  exact congrArg Host.Outcome.next (withSource_flags ra s s.flags.setZNO)

end Sys2Proof.Machine
end

section
/-! SUPPORT. montgomery_multiplier (`42_montgomery_multiplier.md`): the closed form of the modular power, the inverse of
the radix it gives, and the checks that every command with a modulus makes. -/

namespace Sys2Proof.Machine

/-! ### The modular power (R132, R133) -/

theorem emod_emod (v m : Int) : emod (emod v m) m = emod v m := Int.emod_emod_of_dvd v dvd_rfl

theorem emod_modEq (v m : Int) : emod v m ≡ v [ZMOD m] := Int.mod_modEq v m

/-- The loop of R132 multiplies a reduced accumulator by the power that is left; the fuel bounds the exponent. -/
theorem modpowLoop_eq {k n : Nat} (hn : n ≤ k) (b m : Int) {acc : Int} (hacc : emod acc m = acc) :
    modpowLoop k b acc n m = emod (acc * b ^ n) m := by
  induction k generalizing n b acc with
  | zero => simp [modpowLoop, Nat.le_zero.1 hn, hacc]
  | succ k ih =>
    rcases Nat.eq_zero_or_pos n with rfl | hpos
    · simp [modpowLoop, hacc]
    · obtain ⟨j, hj⟩ := n.even_or_odd'
      have hhalf : fdiv (n : Int) 2 = j := by simp only [fdiv]; omega
      have hsquare : emod (b * b) m ^ j ≡ b ^ (2 * j) [ZMOD m] := by
        rw [pow_mul, pow_two]
        exact (emod_modEq _ _).pow j
      rw [modpowLoop, if_neg (by omega), hhalf]
      rcases hj with rfl | rfl
      · rw [if_neg (by simp only [emod]; omega), ih (by omega) _ hacc]
        exact hsquare.mul_left acc
      · rw [if_pos (by simp only [emod]; omega), ih (by omega) _ (emod_emod _ _)]
        calc emod (acc * b) m * emod (b * b) m ^ j
          _ ≡ acc * b * b ^ (2 * j) [ZMOD m] := (emod_modEq _ _).mul hsquare
          _ = acc * b ^ (2 * j + 1) := by rw [mul_assoc, pow_succ']

theorem modpow_eq (base m : Int) (n : Nat) : modpow base n m = base ^ n % m := by
  rw [modpow, Int.toNat_natCast, modpowLoop_eq le_rfl _ _ (emod_emod _ _)]
  calc emod 1 m * emod base m ^ n
    _ ≡ 1 * base ^ n [ZMOD m] := (emod_modEq _ _).mul ((emod_modEq _ _).pow n)
    _ = base ^ n := one_mul _

/-! ### The inverse of the radix (R124) -/

theorem radix_mul_rinv (p : Params) {m : Int} (hodd : m % 2 = 1) : 2 ^ p.W * rinv p m ≡ 1 [ZMOD m] := by
  have hhalf : 2 * fdiv (m + 1) 2 ≡ 1 [ZMOD m] := by
    rw [fdiv, Int.mul_ediv_cancel' (by omega)]
    exact Int.add_modEq_left
  calc 2 ^ p.W * rinv p m
    _ ≡ 2 ^ p.W * fdiv (m + 1) 2 ^ p.W [ZMOD m] := by
      rw [rinv, modpow_eq]
      exact (Int.mod_modEq _ _).mul_left _
    _ = (2 * fdiv (m + 1) 2) ^ p.W := (mul_pow ..).symm
    _ ≡ 1 ^ p.W [ZMOD m] := hhalf.pow _
    _ = 1 := one_pow _

theorem rinv_range (p : Params) {m : Int} (hm : 0 < m) : 0 ≤ rinv p m ∧ rinv p m < m := by
  rw [rinv, modpow_eq]
  exact ⟨Int.emod_nonneg _ hm.ne', Int.emod_lt_of_pos _ hm⟩

/-- An inverse of `c` modulo `m` is determined by its residue. -/
theorem inverse_unique {c m u v : Int} (hu : c * u ≡ 1 [ZMOD m]) (hv : c * v ≡ 1 [ZMOD m]) : u ≡ v [ZMOD m] :=
  calc u = 1 * u := (one_mul u).symm
    _ ≡ c * v * u [ZMOD m] := hv.symm.mul_right u
    _ = c * u * v := mul_right_comm c v u
    _ ≡ 1 * v [ZMOD m] := hu.mul_right v
    _ = v := one_mul v

theorem eq_rinv {p : Params} {m u : Int} (hodd : m % 2 = 1) (h0 : 0 ≤ u) (hu : u < m)
    (h : 2 ^ p.W * u ≡ 1 [ZMOD m]) : u = rinv p m := by
  obtain ⟨hr0, hr⟩ := rinv_range p (h0.trans_lt hu)
  have huv : u % m = rinv p m % m := inverse_unique h (radix_mul_rinv p hodd)
  rwa [Int.emod_eq_of_lt h0 hu, Int.emod_eq_of_lt hr0 hr] at huv

/-! ### The conversions (R125) -/

/-- The factor `rinv` of a Montgomery product takes one factor `2^W` away. -/
theorem emod_mul_rinv (p : Params) {m u c : Int} (hodd : m % 2 = 1) (h : u ≡ c * 2 ^ p.W [ZMOD m]) :
    emod (u * rinv p m) m = c % m :=
  calc u * rinv p m
    _ ≡ c * 2 ^ p.W * rinv p m [ZMOD m] := h.mul_right _
    _ = c * (2 ^ p.W * rinv p m) := mul_assoc ..
    _ ≡ c * 1 [ZMOD m] := (radix_mul_rinv p hodd).mul_left c
    _ = c := mul_one c

/-- Settles O40: the first three identities each cancel one factor `2^W`, and the round trip is their composition. -/
theorem montgomeryIdentities : Obligations.MontgomeryIdentities := by
  intro p m a b _ hodd mm r r2
  have enter (c : Int) : mm c r2 = c * r % m := emod_mul_rinv p hodd <|
    calc c * r2
      _ ≡ c * (r * r) [ZMOD m] := (emod_modEq _ _).mul_left c
      _ = c * r * r := (mul_assoc ..).symm
  have leave (c : Int) : mm (c * r % m) 1 = c % m := emod_mul_rinv p hodd <| by
    rw [mul_one]
    exact Int.mod_modEq _ _
  have product : mm (a * r % m) (b * r % m) = a * b * r % m := emod_mul_rinv p hodd <|
    calc a * r % m * (b * r % m)
      _ ≡ a * r * (b * r) [ZMOD m] := (Int.mod_modEq _ _).mul (Int.mod_modEq _ _)
      _ = a * b * r * r := by ring
  exact ⟨enter a, leave a, product, by rw [enter, enter, product, leave]⟩

/-! ### Commands with a modulus (R121) -/

theorem withSources3_eq (ra rb rc : Reg) (s : State) (k : Int → Int → Int → State) :
    withSources3 ra rb rc s k =
      if s.isValid ra && s.isValid rb && s.isValid rc then k (s.reg ra) (s.reg rb) (s.reg rc)
      else completeFatal .uninit s := by
  rcases withSources3_cases ra rb rc s k with ⟨hv, hk⟩ | ⟨hv, hk⟩
  · rw [hk, if_neg (by simpa [and_assoc] using hv)]
  · rw [hk, if_pos (by simpa [and_assoc] using hv)]

/-- A command that checks its sources (`b`: all are valid) and then its modulus `m` ends with `UNINIT`, `BAD_MODULUS` or
as its own rule `P` says of what follows the checks. -/
theorem checkedModulus_outcome {o : Host.Outcome State Fault Refusal} {b : Bool} {m : Int} {s k : State}
    {P : State → Prop} (ho : o = .next (if b then withModulus m s k else completeFatal .uninit s))
    (hk : b = true → 0 < m → P k) :
    ∃ t, o = .next t ∧ if b then if m ≤ 0 then t = endedFatal 3 s else P t else t = endedFatal 2 s := by
  refine ⟨_, ho, ?_⟩
  cases b with
  | false => exact completeFatal_eq .uninit s
  | true =>
    rcases withModulus_cases m s k with ⟨hm, e⟩ | ⟨hm, e⟩
    · rw [if_pos rfl, if_pos hm]
      exact e.trans (completeFatal_eq .badModulus s)
    · rw [if_pos rfl, if_neg hm.not_ge]
      exact e.symm ▸ hk rfl hm

/-- A residue modulo the value of a valid register fits a register, so its write-back cannot fault. -/
theorem wroteResult_emod {s : State} {rc : Reg} (rd : Reg) (v : Int) (hs : s.RegsInRange) (hc : s.isValid rc = true)
    (hm : 0 < s.reg rc) : WroteResult rd (v % s.reg rc) s (writeResult rd (emod v (s.reg rc)) s) :=
  wroteResult_writeResult <| (hs rc hc).trans' <|
    Int.natAbs_lt_natAbs_of_nonneg_of_lt (Int.emod_nonneg v hm.ne') (Int.emod_lt_of_pos v hm)

/-- Settles O37: MULMOD is the source check, the modulus check and the write-back of a residue. -/
theorem mulmodIsProductModulo : Obligations.MulmodIsProductModulo := by
  intro rd ra rb rc s hs
  refine ⟨decodeOfEncodeIsIdentity (.mulmod rd ra rb rc) rfl,
    checkedModulus_outcome (congrArg _ (withSources3_eq ..)) fun hv hm => ?_⟩
  exact wroteResult_emod rd _ hs (Bool.and_eq_true_iff.1 hv).2 hm

/-- Settles O38: `rinv` is the one inverse of the radix, and it is the third factor of the residue MONTMUL writes. -/
theorem montmulIsMontgomeryProduct : Obligations.MontmulIsMontgomeryProduct := by
  intro rd ra rb rc s hs
  refine ⟨decodeOfEncodeIsIdentity (.montmul rd ra rb rc) rfl,
    checkedModulus_outcome (congrArg _ (withSources3_eq ..)) fun hv hm => ?_⟩
  rcases Int.emod_two_eq_zero_or_one (s.reg rc) with h | h
  · rw [if_pos h]
    exact (if_pos h).trans (completeFatal_eq .domain s)
  · rw [if_neg (by omega), if_neg (by simp only [emod]; omega)]
    obtain ⟨h0, hlt⟩ := rinv_range s.params hm
    exact ⟨rinv s.params (s.reg rc), ⟨h0, hlt, radix_mul_rinv s.params h⟩, fun _ => eq_rinv h,
      wroteResult_emod rd _ hs (Bool.and_eq_true_iff.1 hv).2 hm⟩

/-- Settles O39: MONTR2 writes the residue of the squared radix. -/
theorem montr2IsSquaredRadix : Obligations.Montr2IsSquaredRadix := by
  intro rd rc s hs
  refine ⟨decodeOfEncodeIsIdentity (.montr2 rd rc) rfl, checkedModulus_outcome rfl fun hc hm => ?_⟩
  have hsquare : ((s.params.rmont * s.params.rmont : Nat) : Int) = 2 ^ (2 * s.params.W) := by
    rw [Params.rmont, ← pow_add, ← two_mul, Nat.cast_pow, Nat.cast_ofNat]
  rw [hsquare]
  exact wroteResult_emod rd _ hs hc hm

end Sys2Proof.Machine
end

section
/-! SUPPORT. modular_exponentiation_engine (`43_modexp_engine.md`): MODEXP and CRYPT are the checks of a command with a
modulus and then the write-back of one modular power; the round trip is Fermat's little theorem for each prime of the
key. -/

namespace Sys2Proof.Machine

/-! ### The commands (R130, R131) -/

/-- The write-back of a modular power: a checked exponent is a natural number, so the closed form of R133 applies. -/
theorem wroteResult_modpow {s : State} {rc : Reg} (rd : Reg) (base : Int) {e : Int} (hs : s.RegsInRange)
    (hc : s.isValid rc = true) (hm : 0 < s.reg rc) (he : 0 ≤ e) :
    WroteResult rd (base ^ e.toNat % s.reg rc) s (writeResult rd (modpow base e (s.reg rc)) s) := by
  obtain ⟨n, rfl⟩ := Int.eq_ofNat_of_zero_le he
  rw [modpow_eq]
  exact wroteResult_emod rd _ hs hc hm

/-- A command that checks its sources (`b`: all are valid), its modulus `m` and then its exponent `e` ends with `UNINIT`,
`BAD_MODULUS`, `NEG_EXPONENT` or as its own rule `P` says of what follows the checks. -/
theorem checkedExponent_outcome {o : Host.Outcome State Fault Refusal} {b : Bool} {m e : Int} {s k : State}
    {P : State → Prop}
    (ho : o = .next (if b then withModulus m s (if e < 0 then completeFatal .negExponent s else k)
      else completeFatal .uninit s))
    (hk : b = true → 0 < m → 0 ≤ e → P k) :
    ∃ t, o = .next t ∧
      if b then if m ≤ 0 then t = endedFatal 3 s else if e < 0 then t = endedFatal 4 s else P t
      else t = endedFatal 2 s := by
  refine checkedModulus_outcome ho fun hb hm => ?_
  by_cases he : e < 0
  · rw [if_pos he, if_pos he]
    exact completeFatal_eq .negExponent s
  · rw [if_neg he, if_neg he]
    exact hk hb hm (not_lt.1 he)

/-- Settles O41: MODEXP is the three checks and then the write-back of the power. -/
theorem modexpIsPowerModulo : Obligations.ModexpIsPowerModulo := by
  intro rd ra rb rc s hs
  refine ⟨decodeOfEncodeIsIdentity (.modexp rd ra rb rc) rfl,
    checkedExponent_outcome (congrArg _ (withSources3_eq ..)) fun hv hm he => ?_⟩
  exact wroteResult_modpow rd _ hs (Bool.and_eq_true_iff.1 hv).2 hm he

/-- Settles O42: CRYPT is MODEXP with one more check, of the block, before the write-back. -/
theorem cryptTransformsBlocksInRange : Obligations.CryptTransformsBlocksInRange := by
  intro rd ra rb rc s hs
  refine ⟨decodeOfEncodeIsIdentity (.crypt rd ra rb rc) rfl,
    checkedExponent_outcome (congrArg _ (withSources3_eq ..)) fun hv hm he => ?_⟩
  by_cases hblock : s.reg ra < 0 ∨ s.reg rc ≤ s.reg ra
  · rw [if_pos hblock, if_pos hblock]
    exact completeRecoverable_eq .blockTooLarge s
  · rw [if_neg hblock, if_neg hblock]
    exact wroteResult_modpow rd _ hs (Bool.and_eq_true_iff.1 hv).2 hm he

/-- The one ending of CRYPT that passes every check (R131). -/
theorem crypt_wroteResult {s : State} {ra rb rc : Reg} (rd : Reg) (hs : s.RegsInRange) (ha : s.isValid ra = true)
    (hb : s.isValid rb = true) (hc : s.isValid rc = true) (he : 0 ≤ s.reg rb) (h0 : 0 ≤ s.reg ra)
    (hlt : s.reg ra < s.reg rc) : ∃ t, exec (.crypt rd ra rb rc) s = .next t ∧
      WroteResult rd (s.reg ra ^ (s.reg rb).toNat % s.reg rc) s t := by
  obtain ⟨-, t, ht, hw⟩ := cryptTransformsBlocksInRange rd ra rb rc s hs
  rw [if_pos (by simp [ha, hb, hc]), if_neg (h0.trans_lt hlt).not_ge, if_neg he.not_gt,
    if_neg (not_or.2 ⟨h0.not_gt, hlt.not_ge⟩)] at hw
  exact ⟨t, ht, hw⟩

/-- Every command keeps the registers in range, whichever way it ends (R189). -/
theorem RegsInRange.exec {i : Instr} {s t : State} (hs : s.RegsInRange) (ht : exec i s = .next t) : t.RegsInRange := by
  obtain ⟨t', ht', hend⟩ := exec_commandEnd i s
  obtain rfl : t' = t := Host.Outcome.next.inj (ht'.symm.trans ht)
  cases hend with
  | ok hu => exact hu.regs hs
  | recoverable | fatal | waiting => exact hs

/-! ### The key (R17) and the round trip (R134 (b)) -/

/-- The exponent 0 is congruent to 1 for the modulus 1 alone, and that takes both primes to be 2. -/
theorem pos_of_modEq_one {p q k : Nat} (hp : p.Prime) (hq : q.Prime) (hpq : p ≠ q)
    (h : k ≡ 1 [MOD (p - 1) * (q - 1)]) : 0 < k := by
  by_contra hk
  obtain rfl : k = 0 := by omega
  obtain ⟨hp1, hq1⟩ := mul_eq_one.1 (Nat.dvd_one.1 (Nat.modEq_zero_iff_dvd.1 h.symm))
  have := hp.pos
  have := hq.pos
  omega

/-- Modulo each prime the exponent acts as 1, by Fermat's little theorem, and the primes are coprime; no block need be
coprime to the modulus. -/
theorem pow_modEq_self_of_key {p q k : Nat} (hp : p.Prime) (hq : q.Prime) (hpq : p ≠ q)
    (h : k ≡ 1 [MOD (p - 1) * (q - 1)]) (v : Int) : v ^ k ≡ v [ZMOD p * q] := by
  have hk := pos_of_modEq_one hp hq hpq h
  have hdvd : (p - 1) * (q - 1) ∣ k - 1 := (Nat.modEq_iff_dvd' hk).1 h.symm
  have fermat {r : Nat} (hr : r.Prime) (hd : r - 1 ∣ (p - 1) * (q - 1)) : v ^ k ≡ v [ZMOD r] := by
    simpa using Int.ModEq.pow_eq_pow hr (hd.trans hdvd) hk one_pos v
  have coprime : (p : Int).natAbs.Coprime (q : Int).natAbs := (Nat.coprime_primes hp hq).2 hpq
  exact (Int.modEq_and_modEq_iff_modEq_mul coprime).1
    ⟨fermat hp (Nat.dvd_mul_right ..), fermat hq (Nat.dvd_mul_left ..)⟩

/-- The second power undoes the first, for a block in `[0, n - 1]`. -/
theorem pow_pow_emod_of_key {p q : Nat} (hp : p.Prime) (hq : q.Prime) (hpq : p ≠ q) {e d n v : Int} (he : 0 ≤ e)
    (hd : 0 ≤ d) (hn : n = p * q) (h : e * d ≡ 1 [ZMOD (p - 1) * (q - 1)]) (h0 : 0 ≤ v) (hlt : v < n) :
    (v ^ e.toNat % n) ^ d.toNat % n = v := by
  subst hn
  have key : e.toNat * d.toNat ≡ 1 [MOD (p - 1) * (q - 1)] := by
    rw [← Int.natCast_modEq_iff]
    push_cast [hp.one_le, hq.one_le, Int.toNat_of_nonneg he, Int.toNat_of_nonneg hd]
    exact h
  calc (v ^ e.toNat % (p * q)) ^ d.toNat % (p * q)
    _ = v ^ (e.toNat * d.toNat) % (p * q) := by
      rw [pow_mul]
      exact (Int.mod_modEq _ _).pow _
    _ = v % (p * q) := pow_modEq_self_of_key hp hq hpq key v
    _ = v := Int.emod_eq_of_lt h0 hlt

/-- Settles O43: the first CRYPT keeps the second key and the modulus and leaves a block in range, so the second passes
its checks too, and what it writes is the first block. -/
theorem rsaRoundTrip : Obligations.RsaRoundTrip := by
  intro p q rv re rk rn rc rd s hs hp hq hpq ⟨hv, he, hk, hn⟩ hprod he0 hk0 hkey h0 hlt hck hcn
  have hpos : 0 < s.reg rn := h0.trans_lt hlt
  obtain ⟨t, ht, hwt⟩ := crypt_wroteResult rc hs hv he hn he0 h0 hlt
  have ⟨_, hvalid, hc, hkept⟩ := hwt
  obtain ⟨hkvalid, hkreg⟩ := hkept rk hck.symm
  obtain ⟨hnvalid, hnreg⟩ := hkept rn hcn.symm
  have hc0 : 0 ≤ t.reg rc := by rw [hc]; exact Int.emod_nonneg _ hpos.ne'
  have hclt : t.reg rc < t.reg rn := by rw [hc, hnreg]; exact Int.emod_lt_of_pos _ hpos
  obtain ⟨u, hu, hwu⟩ := crypt_wroteResult rd (RegsInRange.exec hs ht) hvalid (hkvalid.trans hk) (hnvalid.trans hn)
    (hkreg ▸ hk0) hc0 hclt
  rw [hc, hkreg, hnreg, pow_pow_emod_of_key hp hq hpq he0 hk0 hprod hkey h0 hlt] at hwu
  exact ⟨t, u, ht, hu, hwt, hwu⟩

end Sys2Proof.Machine
end

section
/-! SUPPORT. extended_euclidean_core (`44_extended_euclid.md`): the rows of R143 as one sequence, what every row keeps, the
row that is returned, and the three commands, which are their checks and then the write-back of that row. -/

namespace Sys2Proof.Machine

/-! ### The rows (R143) -/

/-- Row `i` of R143 for the operands `a`, `b`, as `(r, cx, cy)`; it goes on past the row that the algorithm returns. -/
def euclidRow (a b : Int) : Nat → Int × Int × Int
  | 0 => (a, 1, 0)
  | 1 => (b, 0, 1)
  | i + 2 => euclidRow a b i - fdiv (euclidRow a b i).1 (euclidRow a b (i + 1)).1 • euclidRow a b (i + 1)

/-- The quotient of two rows, `q[i + 2]` of R143. -/
def euclidQuot (a b : Int) (i : Nat) : Int := fdiv (euclidRow a b i).1 (euclidRow a b (i + 1)).1

section
variable (a b : Int) (i : Nat)

theorem euclidRow_rem : (euclidRow a b (i + 2)).1 =
    (euclidRow a b i).1 - euclidQuot a b i * (euclidRow a b (i + 1)).1 := rfl

theorem euclidRow_cx : (euclidRow a b (i + 2)).2.1 =
    (euclidRow a b i).2.1 - euclidQuot a b i * (euclidRow a b (i + 1)).2.1 := rfl

theorem euclidRow_cy : (euclidRow a b (i + 2)).2.2 =
    (euclidRow a b i).2.2 - euclidQuot a b i * (euclidRow a b (i + 1)).2.2 := rfl

/-- Every row is the Bézout combination of the operands that its coefficients say (R146). -/
theorem euclidRow_bezout : a * (euclidRow a b i).2.1 + b * (euclidRow a b i).2.2 = (euclidRow a b i).1 := by
  induction i using Nat.twoStepInduction with
  | zero => simp [euclidRow]
  | one => simp [euclidRow]
  | more i ih0 ih1 =>
    rw [euclidRow_rem, euclidRow_cx, euclidRow_cy, ← ih0, ← ih1]
    ring

/-- Two rows that follow each other have the gcd of the operands. -/
theorem gcd_euclidRow : Int.gcd (euclidRow a b i).1 (euclidRow a b (i + 1)).1 = Int.gcd a b := by
  induction i with
  | zero => rfl
  | succ i ih => rw [euclidRow_rem, Int.gcd_comm, Int.gcd_sub_mul_right_left, ih]

end

theorem euclidRow_rem_nonneg {a b : Int} (ha : 0 ≤ a) (hb : 0 ≤ b) (i : Nat) : 0 ≤ (euclidRow a b i).1 := by
  induction i using Nat.twoStepInduction with
  | zero => exact ha
  | one => exact hb
  | more i ih0 ih1 =>
    rw [euclidRow_rem, euclidQuot, fdiv, mul_comm, ← Int.emod_def]
    rcases ih1.eq_or_lt with h | h
    · rwa [← h, Int.emod_zero]
    · exact Int.emod_nonneg _ h.ne'

theorem euclidQuot_nonneg {a b : Int} (ha : 0 ≤ a) (hb : 0 ≤ b) (i : Nat) : 0 ≤ euclidQuot a b i :=
  Int.ediv_nonneg (euclidRow_rem_nonneg ha hb i) (euclidRow_rem_nonneg ha hb (i + 1))

/-! ### The size of the coefficients (R145) -/

/-- Coefficients `x`, `x'` of two rows with remainders `r`, `r'` do not have the same sign, and their cross sum with the
remainders is `c`: the operand that the coefficients of this column do not multiply. -/
def Interlaced (c r r' x x' : Int) : Prop := x * x' ≤ 0 ∧ |x'| * r + |x| * r' = c

theorem abs_sub_mul_of_opposite {x x' q : Int} (h : x * x' ≤ 0) (hq : 0 ≤ q) : |x - q * x'| = |x| + q * |x'| := by
  rcases mul_nonpos_iff.1 h with ⟨hx, hx'⟩ | ⟨hx, hx'⟩
  · rw [abs_of_nonneg hx, abs_of_nonpos hx',
      abs_of_nonneg (sub_nonneg.2 ((mul_nonpos_of_nonneg_of_nonpos hq hx').trans hx))]
    ring
  · rw [abs_of_nonpos hx, abs_of_nonneg hx',
      abs_of_nonpos (sub_nonpos.2 (hx.trans (mul_nonneg hq hx')))]
    ring

theorem Interlaced.next {c r r' x x' q : Int} (h : Interlaced c r r' x x') (hq : 0 ≤ q) :
    Interlaced c r' (r - q * r') x' (x - q * x') := by
  obtain ⟨hsign, hsum⟩ := h
  refine ⟨by nlinarith [mul_nonneg hq (mul_self_nonneg x')], ?_⟩
  rw [abs_sub_mul_of_opposite hsign hq, ← hsum]
  ring

/-- The later of the two coefficients is at most `c` while the earlier remainder is positive. -/
theorem Interlaced.abs_le {c r r' x x' : Int} (h : Interlaced c r r' x x') (hr : 0 < r) (hr' : 0 ≤ r') : |x'| ≤ c :=
  calc |x'|
    _ ≤ |x'| * r := le_mul_of_one_le_right (abs_nonneg x') hr
    _ ≤ |x'| * r + |x| * r' := le_add_of_nonneg_right (mul_nonneg (abs_nonneg x) hr')
    _ = c := h.2

theorem euclidRow_interlaced {a b : Int} (ha : 0 ≤ a) (hb : 0 ≤ b) (i : Nat) :
    Interlaced b (euclidRow a b i).1 (euclidRow a b (i + 1)).1 (euclidRow a b i).2.1 (euclidRow a b (i + 1)).2.1 ∧
    Interlaced a (euclidRow a b i).1 (euclidRow a b (i + 1)).1 (euclidRow a b i).2.2 (euclidRow a b (i + 1)).2.2 := by
  induction i with
  | zero => simp [euclidRow, Interlaced]
  | succ i ih => exact ⟨ih.1.next (euclidQuot_nonneg ha hb i), ih.2.next (euclidQuot_nonneg ha hb i)⟩

/-! ### The row that is returned -/

/-- The algorithm returns a row on all operands: remainders that never reach 0 would fall for ever. -/
theorem exists_euclidRow_rem_eq_zero {a b : Int} (hb : 0 < b) : ∃ m, (euclidRow a b (m + 2)).1 = 0 := by
  by_contra! h
  have hfall := rows_decrease (m := b.toNat) (r := fun i => (euclidRow a b i).1) (q := fun i => euclidQuot a b (i - 2))
    (fun i _ => ⟨rfl, euclidRow_rem a b i⟩) (fun i _ => h i) hb b.toNat le_rfl
  simp only [euclidRow] at hfall
  omega

/-- For positive operands the algorithm returns a row of the sequence: its predecessor has a positive remainder, and its
successor is the first with remainder 0. -/
theorem exists_euclidReturns_of_pos {a b : Int} (ha : 0 < a) (hb : 0 < b) : ∃ m, 0 < (euclidRow a b m).1 ∧
    (euclidRow a b (m + 2)).1 = 0 ∧
    EuclidReturns a b (euclidRow a b (m + 1)).1 (euclidRow a b (m + 1)).2.1 (euclidRow a b (m + 1)).2.2 := by
  have hex : ∃ m, (euclidRow a b (m + 2)).1 = 0 := exists_euclidRow_rem_eq_zero hb
  have hlast := Nat.find_spec hex
  have hfirst : ∀ i < Nat.find hex, (euclidRow a b (i + 2)).1 ≠ 0 := fun _ => Nat.find_min hex
  generalize Nat.find hex = m at hlast hfirst
  refine ⟨m, ?_, hlast, .inr (.inr ⟨ha.ne', hb.ne', m, fun i => (euclidRow a b i).1, fun i => euclidQuot a b (i - 2),
    fun i => (euclidRow a b i).2.1, fun i => (euclidRow a b i).2.2, ⟨rfl, rfl, rfl⟩, ⟨rfl, rfl, rfl⟩,
    fun i _ => ⟨rfl, euclidRow_rem a b i⟩, fun i hi => ⟨hfirst i hi, euclidRow_cx a b i, euclidRow_cy a b i⟩,
    hlast, rfl, rfl, rfl⟩)⟩
  match m with
  | 0 => exact ha
  | 1 => exact hb
  | j + 2 => exact (euclidRow_rem_nonneg ha.le hb.le _).lt_of_ne' (hfirst j (by omega))

/-- On all operands of 0 or more the algorithm returns a row of the sequence, a seed row in the guard cases: the remainder
after it is 0, and its coefficients are bounded by the operands (R145). -/
theorem exists_euclidReturns {a b : Int} (ha : 0 ≤ a) (hb : 0 ≤ b) : ∃ k, (euclidRow a b (k + 1)).1 = 0 ∧
    |(euclidRow a b k).2.1| ≤ max b 1 ∧ |(euclidRow a b k).2.2| ≤ max a 1 ∧
    EuclidReturns a b (euclidRow a b k).1 (euclidRow a b k).2.1 (euclidRow a b k).2.2 := by
  rcases ha.eq_or_lt with rfl | ha
  · exact ⟨1, by simp [euclidRow, fdiv], by simp [euclidRow], by simp [euclidRow], .inl ⟨rfl, rfl, rfl, rfl⟩⟩
  rcases hb.eq_or_lt with rfl | hb
  · exact ⟨0, rfl, by simp [euclidRow], by simp [euclidRow], .inr (.inl ⟨ha.ne', rfl, rfl, rfl, rfl⟩)⟩
  obtain ⟨m, hpos, hlast, hret⟩ := exists_euclidReturns_of_pos ha hb
  obtain ⟨hx, hy⟩ := euclidRow_interlaced ha.le hb.le m
  have hnext := euclidRow_rem_nonneg ha.le hb.le (m + 1)
  exact ⟨m + 1, hlast, le_max_of_le_left (hx.abs_le hpos hnext), le_max_of_le_left (hy.abs_le hpos hnext), hret⟩

theorem xgcd_zero_left (b : Int) : xgcd 0 b = (b, 0, 1) := if_pos rfl

theorem xgcd_zero_right {a : Int} (ha : a ≠ 0) : xgcd a 0 = (a, 1, 0) := (if_neg ha).trans (if_pos rfl)

/-- What R143 leads to is what the core returns: the fuel covers the rows. -/
theorem EuclidReturns.xgcd_eq {a b g x y : Int} (hb : 0 ≤ b) (h : EuclidReturns a b g x y) : xgcd a b = (g, x, y) := by
  rcases h with ⟨rfl, rfl, rfl, rfl⟩ | ⟨ha, rfl, rfl, rfl, rfl⟩ |
    ⟨ha, hb0, m, r, q, cx, cy, ⟨hr0, hx0, hy0⟩, ⟨hr1, hx1, hy1⟩, quot, coef, last, rfl, rfl, rfl⟩
  · exact xgcd_zero_left _
  · exact xgcd_zero_right ha
  · have hfall := rows_decrease quot (fun i hi => (coef i hi).1) (by omega) m le_rfl
    rw [xgcd, if_neg ha, if_neg hb0, ← xgcdLoop_rows quot coef last b.toNat 0 m.zero_le (by omega),
      hr0, hx0, hy0, hr1, hx1, hy1]

/-- What the Euclid core returns: the row that R143 leads to, with the gcd, the identity (R146) and the bounds (R145). -/
theorem xgcd_spec {a b : Int} (ha : 0 ≤ a) (hb : 0 ≤ b) :
    EuclidReturns a b (xgcd a b).1 (xgcd a b).2.1 (xgcd a b).2.2 ∧ (xgcd a b).1 = Int.gcd a b ∧
    a * (xgcd a b).2.1 + b * (xgcd a b).2.2 = (xgcd a b).1 ∧
    |(xgcd a b).2.1| ≤ max b 1 ∧ |(xgcd a b).2.2| ≤ max a 1 := by
  obtain ⟨k, hlast, hx, hy, hret⟩ := exists_euclidReturns ha hb
  have hgcd : (Int.gcd a b : Int) = (euclidRow a b k).1 := by
    rw [← gcd_euclidRow a b k, hlast, Int.gcd_zero_right, Int.natAbs_of_nonneg (euclidRow_rem_nonneg ha hb k)]
  rw [hret.xgcd_eq hb]
  exact ⟨hret, hgcd.symm, euclidRow_bezout a b k, hx, hy⟩

theorem euclidReturns_iff {a b : Int} (ha : 0 ≤ a) (hb : 0 ≤ b) (g x y : Int) :
    EuclidReturns a b g x y ↔ xgcd a b = (g, x, y) := by
  refine ⟨EuclidReturns.xgcd_eq hb, fun h => ?_⟩
  simpa only [h] using (xgcd_spec ha hb).1

/-- Settles O46: the bounds are those of the row that is returned, and that row is the one the rules lead to. -/
theorem bezoutCoefficientsAreBounded : Obligations.BezoutCoefficientsAreBounded := by
  intro a b ha hb
  obtain ⟨-, -, -, hx, hy⟩ := xgcd_spec ha hb
  exact ⟨hx, hy, xgcd_zero_left b, fun h => xgcd_zero_right h.ne', euclidReturns_iff ha hb⟩

/-! ### The commands (R140 to R142) -/

/-- A command that checks its sources (`b`: all are valid) and then their signs (`p`: one is negative) ends with
`UNINIT`, `NEG_OPERAND` or as its own rule `P` says of what follows the checks. -/
theorem checkedSign_outcome {o : Host.Outcome State Fault Refusal} {b : Bool} {p : Prop} [Decidable p] {s k : State}
    {P : State → Prop}
    (ho : o = .next (if b then if p then completeFatal .negOperand s else k else completeFatal .uninit s))
    (hk : b = true → ¬p → P k) :
    ∃ t, o = .next t ∧ if b then if p then t = endedFatal 6 s else P t else t = endedFatal 2 s := by
  refine ⟨_, ho, ?_⟩
  cases b with
  | false => exact completeFatal_eq .uninit s
  | true =>
    by_cases hp : p
    · rw [if_pos rfl, if_pos hp, if_pos rfl, if_pos hp]
      exact completeFatal_eq .negOperand s
    · rw [if_pos rfl, if_neg hp, if_pos rfl, if_neg hp]
      exact hk rfl hp

theorem gcd_lt_of_natAbs_lt {a b : Int} {n : Nat} (ha : a.natAbs < n) (hb : b.natAbs < n) : Int.gcd a b < n := by
  rcases Nat.eq_zero_or_pos a.natAbs with h | h
  · rwa [Int.gcd, h, Nat.gcd_zero_left]
  · exact (Nat.gcd_le_left _ h).trans_lt ha

/-- Settles O44: GCD is the checks and then the write-back of the gcd, which fits where the operands do. -/
theorem gcdIsGreatestCommonDivisor : Obligations.GcdIsGreatestCommonDivisor := by
  intro rd ra rb s hs
  refine ⟨decodeOfEncodeIsIdentity (.gcd rd ra rb) rfl,
    checkedSign_outcome (congrArg _ (withSources2_eq ..)) fun hv hsign => ?_⟩
  obtain ⟨ha, hb⟩ := Bool.and_eq_true_iff.1 hv
  obtain ⟨-, hgcd, -⟩ := xgcd_spec (not_lt.1 (not_or.1 hsign).1) (not_lt.1 (not_or.1 hsign).2)
  rw [hgcd]
  exact wroteResult_writeResult (gcd_lt_of_natAbs_lt (hs ra ha) (hs rb hb))

/-- Three writes that fit end OK, and the registers hold what was written: no destination is another one. -/
theorem wroteBezout_writeBack {rd rx ry : Reg} {g cx cy : Int} {s : State}
    (hdx : rd ≠ rx) (hdy : rd ≠ ry) (hxy : rx ≠ ry)
    (hg : g.natAbs < 2 ^ s.params.W) (hcx : cx.natAbs < 2 ^ s.params.W) (hcy : cy.natAbs < 2 ^ s.params.W) :
    WroteBezout rd rx ry g cx cy s (writeBack [(rd, g), (rx, cx), (ry, cy)] (s.flags.setZNO g) s) := by
  have hfit : ([(rd, g), (rx, cx), (ry, cy)] : List (Reg × Int)).all (fun w => fits s.params w.2) = true := by
    simp [fits_iff, hg, hcx, hcy]
  rw [writeBack, if_pos hfit]
  obtain ⟨hdv, hdr, hd⟩ := onlyReg_setReg rd g s
  obtain ⟨hxv, hxr, hx⟩ := onlyReg_setReg rx cx (s.setReg rd g)
  obtain ⟨hyv, hyr, hy⟩ := onlyReg_setReg ry cy ((s.setReg rd g).setReg rx cx)
  exact ⟨rfl,
    ⟨(hy rd hdy).1.trans ((hx rd hdx).1.trans hdv), (hy rd hdy).2.trans ((hx rd hdx).2.trans hdr)⟩,
    ⟨(hy rx hxy).1.trans hxv, (hy rx hxy).2.trans hxr⟩, ⟨hyv, hyr⟩,
    fun r hrd hrx hry => ⟨(hy r hry).1.trans ((hx r hrx).1.trans (hd r hrd).1),
      (hy r hry).2.trans ((hx r hrx).2.trans (hd r hrd).2)⟩⟩

/-- A coefficient that is bounded by an operand in range, or by 1, is in range. -/
theorem natAbs_lt_of_abs_le_max {p : Params} {x v : Int} (hx : |x| ≤ max v 1) (hv : v.natAbs < 2 ^ p.W) :
    x.natAbs < 2 ^ p.W := by
  rw [Int.abs_eq_natAbs] at hx
  have hone : 1 < 2 ^ p.W := uimm_lt 1 p
  rcases le_max_iff.1 hx with h | h <;> omega

/-- Settles O45: XGCD is the checks and then the write-back of the row that is returned, whose three values fit. -/
theorem xgcdGivesBezoutCoefficients : Obligations.XgcdGivesBezoutCoefficients := by
  intro rd rx ry ra rb s hs ⟨hdx, hdy, hxy⟩
  have hwf : wellFormed (.xgcd rd rx ry ra rb) = true := by simp [wellFormed, hdx, hdy, hxy]
  refine ⟨decodeOfEncodeIsIdentity (.xgcd rd rx ry ra rb) hwf,
    checkedSign_outcome (congrArg _ ((if_pos hwf).trans (withSources2_eq ..))) fun hv hsign => ?_⟩
  obtain ⟨ha, hb⟩ := Bool.and_eq_true_iff.1 hv
  obtain ⟨hret, hgcd, hbez, hx, hy⟩ := xgcd_spec (not_lt.1 (not_or.1 hsign).1) (not_lt.1 (not_or.1 hsign).2)
  have hg := gcd_lt_of_natAbs_lt (hs ra ha) (hs rb hb)
  exact ⟨_, _, _, hret, hgcd, hbez, wroteBezout_writeBack hdx hdy hxy (hgcd ▸ hg)
    (natAbs_lt_of_abs_le_max hx (hs rb hb)) (natAbs_lt_of_abs_le_max hy (hs ra ha))⟩

/-- Where the gcd is 1, the residue of the coefficient is an inverse. -/
theorem mul_emod_modEq_one {a m x y : Int} (h : a * x + m * y = 1) : a * emod x m ≡ 1 [ZMOD m] :=
  calc a * emod x m
    _ ≡ a * x [ZMOD m] := (emod_modEq x m).mul_left a
    _ ≡ a * x + m * y [ZMOD m] := Int.left_modEq_add_iff.2 (dvd_mul_right m y)
    _ = 1 := h

/-- Settles O47: MODINV is the checks and then, where the gcd is 1, the write-back of the residue of the coefficient. -/
theorem modinvInvertsOrReports : Obligations.ModinvInvertsOrReports := by
  intro rd ra rc s hs
  refine ⟨decodeOfEncodeIsIdentity (.modinv rd ra rc) rfl,
    checkedModulus_outcome (congrArg _ (withSources2_eq ..)) fun hv hm => ?_⟩
  by_cases hsign : s.reg ra < 0
  · rw [if_pos hsign, if_pos hsign]
    exact completeFatal_eq .negOperand s
  rw [if_neg hsign, if_neg hsign]
  obtain ⟨-, hgcd, hbez, -⟩ := xgcd_spec (not_lt.1 hsign) hm.le
  by_cases hone : Int.gcd (s.reg ra) (s.reg rc) = 1
  · rw [if_neg (not_not.2 hone), if_neg (by rw [hgcd, hone]; simp)]
    rw [hgcd, hone] at hbez
    exact ⟨_, Int.emod_nonneg _ hm.ne', Int.le_sub_one_of_lt (Int.emod_lt_of_pos _ hm), mul_emod_modEq_one hbez,
      wroteResult_emod rd _ hs (Bool.and_eq_true_iff.1 hv).2 hm⟩
  · rw [if_pos hone, if_pos (by rw [hgcd]; exact_mod_cast hone)]
    exact completeRecoverable_eq .noInverse s

end Sys2Proof.Machine
end

section
/-! SUPPORT. jacobi_symbol_unit (`45_jacobi_unit.md`): each turn of the loop of R153 keeps the product of the sign
carried and the symbol of R152; the two commands are one check of the lower argument and then the write-back of that
symbol. -/

namespace Sys2Proof.Machine

/-! ### The loop (R153) -/

section
variable {k a n : Nat} {t : Int}

/-- Where the loop ends, at an upper argument of 0, it returns the sign times the symbol. -/
theorem ite_one_eq_mul_jacobiSym_zero (hodd : n % 2 = 1) : (if (n : Int) = 1 then t else 0) = t * jacobiSym 0 n := by
  rcases (show 1 ≤ n by omega).eq_or_lt with rfl | h
  · simp
  · rw [if_neg (by omega), jacobiSym.zero_left h, mul_zero]

/-- An even upper argument is halved, and the sign flips by law (e) of R152. -/
theorem jacobiLoop_even (hpos : 0 < a) (heven : a % 2 = 0) : jacobiLoop (k + 1) a n t =
    jacobiLoop k (a / 2 : Int) n (if n % 8 = 3 ∨ n % 8 = 5 then -t else t) := by
  have hsign : emod n 8 = 3 ∨ emod n 8 = 5 ↔ n % 8 = 3 ∨ n % 8 = 5 := by simp only [emod]; omega
  rw [jacobiLoop, if_neg (by omega), if_pos (by simp only [emod]; omega), if_congr hsign rfl rfl, fdiv]

/-- An odd upper argument becomes the lower one, and the sign flips by law (f) of R152. -/
theorem jacobiLoop_odd (hodd : a % 2 = 1) : jacobiLoop (k + 1) a n t =
    jacobiLoop k (n % a : Int) a (if a % 4 = 3 ∧ n % 4 = 3 then -t else t) := by
  have hsign : emod n 4 = 3 ∧ emod a 4 = 3 ↔ a % 4 = 3 ∧ n % 4 = 3 := by simp only [emod]; omega
  rw [jacobiLoop, if_neg (by omega), if_neg (by simp only [emod]; omega), if_congr hsign rfl rfl, emod]

end

/-- A flip of the sign is a flip of the symbol. -/
theorem ite_neg_mul (p : Prop) [Decidable p] (t j : Int) :
    (if p then -t else t) * j = t * if p then -j else j := by
  split
  · exact neg_mul_comm t j
  · rfl

/-- The loop returns the sign it carries times the symbol of its arguments. The fuel bounds the upper argument, which
falls in each turn. -/
theorem jacobiLoop_eq {k a n : Nat} (hk : a ≤ k) (hodd : n % 2 = 1) (t : Int) :
    jacobiLoop k a n t = t * jacobiSym a n := by
  induction k generalizing a n t with
  | zero =>
    obtain rfl := Nat.le_zero.1 hk
    exact ite_one_eq_mul_jacobiSym_zero hodd
  | succ k ih =>
    rcases Nat.eq_zero_or_pos a with rfl | hpos
    · exact (if_pos rfl).trans (ite_one_eq_mul_jacobiSym_zero hodd)
    rcases Nat.mod_two_eq_zero_or_one a with ha | ha
    · have hhalf := ih (a := a / 2) (by omega) hodd
      rw [Int.natCast_ediv, Nat.cast_ofNat] at hhalf
      rw [jacobiLoop_even hpos ha, hhalf, ite_neg_mul, jacobiSym.even_odd (mod_cast ha) hodd]
    · have hswap := ih (a := n % a) (Nat.le_of_lt_succ ((Nat.mod_lt n hpos).trans_le hk)) ha
      rw [Int.natCast_mod] at hswap
      rw [jacobiLoop_odd ha, hswap, ite_neg_mul, ← jacobiSym.mod_left, jacobiSym.quadratic_reciprocity_if ha hodd]

/-- The unit computes the symbol that R152 defines. -/
theorem jacobi_eq (a : Int) {n : Int} (hpos : 0 < n) (hodd : n % 2 = 1) : jacobi a n = jacobiSym a n.toNat := by
  lift n to Nat using hpos.le
  have hlt := Int.emod_lt_of_pos a hpos
  obtain ⟨r, hr⟩ := Int.eq_ofNat_of_zero_le (Int.emod_nonneg a hpos.ne')
  rw [jacobi, emod, Int.toNat_natCast, jacobiSym.mod_left, hr, jacobiLoop_eq (by omega) (by omega), one_mul]

/-! ### The commands (R150, R151) -/

/-- A symbol has three values, and the two bits of `JAC` tell them as R150 lists them. -/
theorem jacCode_jacobiSym (a : Int) (n : Nat) : jacCode (jacobiSym a n) = jacBits (jacobiSym a n) := by
  rcases jacobiSym.trichotomy a n with h | h | h <;> rw [h] <;> rfl

/-- A symbol takes one bit of magnitude, so it fits every register. -/
theorem natAbs_jacobiSym_lt (a : Int) (n : Nat) (p : Params) : (jacobiSym a n).natAbs < 2 ^ p.W := by
  refine lt_of_le_of_lt ?_ (uimm_lt 1 p)
  rcases jacobiSym.trichotomy a n with h | h | h <;> rw [h] <;> decide

/-- The residue of a symbol fits where the lower argument does. -/
theorem natAbs_jacobiResidue_lt (a : Int) {n : Int} (hpos : 0 < n) {p : Params} (hn : n.natAbs < 2 ^ p.W) :
    (jacobiResidue (jacobiSym a n.toNat) n).natAbs < 2 ^ p.W := by
  rw [jacobiResidue]
  split
  · omega
  · exact natAbs_jacobiSym_lt a n.toNat p

/-- The write-back of a value that fits, with the flags of the value and the symbol's two bits. -/
theorem wroteReg_writeSymbol {rd : Reg} {v a : Int} {n : Nat} {s : State} (hv : v.natAbs < 2 ^ s.params.W) :
    WroteReg rd v { znoOf s.flags v with jac := jacBits (jacobiSym a n) } s (writeSymbol rd v (jacobiSym a n) s) := by
  rw [writeSymbol_fits hv, ← jacCode_jacobiSym]
  exact wroteReg_writeBack

/-- A command that checks its sources (`b`: all are valid) and then their values (`p`: one is refused) ends with
`UNINIT`, with the code of that check or as its own rule `P` says of what follows the checks. -/
theorem checkedValue_outcome (c : FatalCode) {o : Host.Outcome State Fault Refusal} {b : Bool} {p : Prop} [Decidable p]
    {s k : State} {P : State → Prop}
    (ho : o = .next (if b then if p then completeFatal c s else k else completeFatal .uninit s))
    (hk : b = true → ¬p → P k) :
    ∃ t, o = .next t ∧ if b then if p then t = endedFatal c.code s else P t else t = endedFatal 2 s := by
  refine ⟨_, ho, ?_⟩
  cases b with
  | false => exact completeFatal_eq .uninit s
  | true =>
    by_cases hp : p
    · rw [if_pos rfl, if_pos hp, if_pos rfl, if_pos hp]
      exact completeFatal_eq c s
    · rw [if_pos rfl, if_neg hp, if_pos rfl, if_neg hp]
      exact hk rfl hp

/-- Settles O48: JACOBI is the checks and then the write-back of the symbol, which always fits. -/
theorem jacobiIsTheJacobiSymbol : Obligations.JacobiIsTheJacobiSymbol := by
  intro rd ra rc s
  refine ⟨decodeOfEncodeIsIdentity (.jacobi rd ra rc) rfl,
    checkedValue_outcome .domain (congrArg _ (withSources2_eq ..)) fun _ hn => ?_⟩
  rw [jacobi_eq _ (by omega) (by omega)]
  exact wroteReg_writeSymbol (natAbs_jacobiSym_lt _ _ _)

/-- Settles O49: JACOBIR differs from JACOBI in the value alone, the residue of the symbol, which fits where the lower
argument does. -/
theorem jacobirIsTheSymbolAsResidue : Obligations.JacobirIsTheSymbolAsResidue := by
  intro rd ra rc s hs
  refine ⟨decodeOfEncodeIsIdentity (.jacobir rd ra rc) rfl,
    checkedValue_outcome .domain (congrArg _ (withSources2_eq ..)) fun hv hn => ?_⟩
  have hpos : 0 < s.reg rc := by omega
  rw [jacobi_eq _ hpos (by omega)]
  exact ⟨_, rfl, wroteReg_writeSymbol (natAbs_jacobiResidue_lt _ hpos (hs rc (Bool.and_eq_true_iff.1 hv).2))⟩

end Sys2Proof.Machine
end

section
/-! SUPPORT. trial_division_filter (`46_trial_division.md`): the filter answers the first entry of an ascending table
that rejects, so it answers the smallest; the table holds primes alone, so a rejection is a proper divisor. -/

namespace Sys2Proof.Machine

/-! ### The filter (R162, R163) -/

theorem divides_iff_dvd (d v : Int) : divides d v = true ↔ d ∣ v := by
  rw [divides, emod, decide_eq_true_iff, Int.dvd_iff_emod_eq_zero]

/-- In an ascending list the first element that passes a test is the smallest that does. -/
theorem find?_some_smallest {l : List Nat} (hl : l.Pairwise (· < ·)) {test : Nat → Bool} {p : Nat}
    (h : l.find? test = some p) : p ∈ l ∧ test p = true ∧ ∀ q ∈ l, q < p → test q ≠ true := by
  refine ⟨List.mem_of_find?_eq_some h, List.find?_some h, fun q hq hlt => ?_⟩
  obtain ⟨-, before, after, rfl, hbefore⟩ := List.find?_eq_some_iff_append.1 h
  rcases List.mem_append.1 hq with hq | hq
  · simpa using hbefore q hq
  · obtain ⟨-, htail, -⟩ := List.pairwise_append.1 hl
    rcases List.mem_cons.1 hq with rfl | hq
    · exact absurd hlt (lt_irrefl q)
    · exact absurd (List.rel_of_pairwise_cons htail hq) hlt.not_gt

theorem pairwise_lt_tablePrimes : tablePrimes.Pairwise (· < ·) := by decide

theorem prime_of_mem_tablePrimes {p : Nat} (h : p ∈ tablePrimes) : p.Prime := by
  revert p
  norm_num [tablePrimes]

/-- The filter answers the smallest table prime that rejects, or 0 where none does. -/
theorem trialFilter_cases (v : Int) :
    FirstReject (trialFilter v) v ∨ (PassesFilter v ∧ trialFilter v = 0) := by
  have test_iff (p : Nat) : (divides p v && decide (v ≠ p)) = true ↔ Rejects p v := by
    rw [Bool.and_eq_true, divides_iff_dvd, decide_eq_true_iff, Rejects]
  rw [trialFilter]
  cases h : smallPrimes.find? fun p : Nat => divides p v && decide (v ≠ p) with
  | none => exact .inr ⟨fun p hp hr => List.find?_eq_none.1 h p hp ((test_iff p).2 hr), rfl⟩
  | some p =>
    obtain ⟨hmem, hp, hmin⟩ := find?_some_smallest pairwise_lt_tablePrimes h
    exact .inl ⟨hmem, (test_iff p).1 hp, fun q hq hlt hr => hmin q hq hlt ((test_iff q).2 hr)⟩

/-- A prime's one divisor among the primes is itself, which the filter does not count. -/
theorem passesFilter_of_prime {n : Nat} (hn : n.Prime) : PassesFilter n := by
  intro p hp ⟨hdvd, hne⟩
  have : p = n := (Nat.prime_dvd_prime_iff_eq (prime_of_mem_tablePrimes hp) hn).1 (Int.natCast_dvd_natCast.1 hdvd)
  exact hne (congrArg _ this.symm)

/-- Settles O52: an answer of the filter is a prime divisor other than the number. -/
theorem filterRejectsOnlyComposites : Obligations.FilterRejectsOnlyComposites := by
  intro v
  rcases trialFilter_cases v with ⟨hmem, ⟨hdvd, hne⟩, -⟩ | ⟨-, hzero⟩
  · refine ⟨fun h0 hv => ?_, fun _ hv => ⟨_, (prime_of_mem_tablePrimes hmem).two_le, ?_, hdvd⟩⟩
    · lift v to Nat using h0
      exact absurd ⟨hdvd, hne⟩ (passesFilter_of_prime hv _ hmem)
    · exact (Int.le_of_dvd (by omega) hdvd).lt_of_ne hne.symm
  · exact ⟨fun _ _ => hzero, fun h => absurd hzero h⟩

/-! ### The commands (R160, R161) -/

theorem completeOk_setHit {d : Nat} (hd : d ≠ 0) (s : State) : completeOk (s.setHit d) =
    { endedOk s with flags := { s.flags with div := true }, tdhit := BitVec.ofNat 16 d } := by
  rw [completeOk_eq, State.setHit, decide_eq_true hd]
  rfl

theorem completeOk_setHit_zero (s : State) : completeOk (s.setHit 0) =
    { endedOk s with flags := { s.flags with div := false }, tdhit := 0 } :=
  completeOk_eq _

theorem uimm_eq_zero_iff (imm : Imm16) : uimm imm = 0 ↔ imm = 0 := BitVec.toNat_inj (y := 0)

/-- Settles O51: after the source check, TFILT is an OK completion that writes the filter's answer. -/
theorem tfiltReportsSmallestRejectingPrime : Obligations.TfiltReportsSmallestRejectingPrime := by
  intro ra s
  refine ⟨decodeOfEncodeIsIdentity (.tfilt ra) rfl, _, rfl, ?_⟩
  rcases withSource_cases ra s fun v => completeOk (s.setHit (trialFilter v)) with ⟨hv, hk⟩ | ⟨hv, hk⟩
  · rw [if_neg (by simp [hv]), hk]
    exact completeFatal_eq .uninit s
  rw [if_pos hv, hk]
  rcases trialFilter_cases (s.reg ra) with hreject | ⟨hpass, hzero⟩
  · have ⟨hmem, _, _⟩ := hreject
    exact .inl ⟨_, hreject, completeOk_setHit (prime_of_mem_tablePrimes hmem).ne_zero s⟩
  · rw [hzero]
    exact .inr ⟨hpass, completeOk_setHit_zero s⟩

/-- Settles O50: after the checks of the source and of the divisor, TDIV is an OK completion that writes the divisor or
none. -/
theorem tdivTestsDivisibility : Obligations.TdivTestsDivisibility := by
  intro ra imm s
  refine ⟨decodeOfEncodeIsIdentity (.tdiv ra imm) rfl, ?_⟩
  simp only [← uimm_eq_zero_iff]
  refine checkedValue_outcome .domain rfl fun _ hd => ⟨fun hdvd : (uimm imm : Int) ∣ s.reg ra => ?_,
    fun hdvd : ¬(uimm imm : Int) ∣ s.reg ra => ?_⟩
  · rw [if_pos ((divides_iff_dvd _ _).2 hdvd), completeOk_setHit hd, uimm, BitVec.ofNat_toNat, BitVec.setWidth_eq]
  · rw [if_neg (mt (divides_iff_dvd _ _).1 hdvd)]
    exact completeOk_setHit_zero s

end Sys2Proof.Machine
end

section
/-! SUPPORT. primality_test_controller (`47_primality_controller.md`), one round: the model's round is the one stated in
Mathlib's terms, and that round is Euler's criterion as a congruence, which every prime and every last witness meets. -/

namespace Sys2Proof.Machine

/-! ### One round (R173) -/

/-- The three units a round calls (Euclid, Jacobi, power) answer what Mathlib's gcd, symbol and power say. -/
theorem ssRound_iff {n : Int} (hn : NeedsRounds n) (a : Nat) : ssRound n a = true ↔ RoundPasses n.toNat a := by
  obtain ⟨hthree, hodd⟩ := hn
  lift n to Nat using by omega
  obtain ⟨-, hgcd, -⟩ := xgcd_spec (Int.natCast_nonneg a) (Int.natCast_nonneg n)
  have hhalf : fdiv ((n : Int) - 1) 2 = ((n - 1) / 2 : Nat) := by rw [fdiv]; omega
  have hgcd_one : ¬(xgcd a n).1 ≠ 1 ↔ Nat.gcd a n = 1 := by
    rw [hgcd, Int.gcd_natCast_natCast, not_not, Nat.cast_eq_one]
  rw [ssRound, RoundPasses, Int.toNat_natCast, ← hgcd_one, jacobi_eq _ (by omega) hodd, Int.toNat_natCast, hhalf,
    modpow_eq, jacobiResidue]
  by_cases h : (xgcd a n).1 ≠ 1 <;> simp [h]

/-- A symbol taken as a residue (R151) is its residue modulo the lower argument. -/
theorem symbol_residue_eq_emod (a : Int) {n : Nat} (hn : 2 ≤ n) :
    (if jacobiSym a n = -1 then (n : Int) - 1 else jacobiSym a n) = jacobiSym a n % n := by
  rcases jacobiSym.trichotomy a n with h | h | h <;> rw [h]
  · simp
  · exact (Int.emod_eq_of_lt one_pos.le (by omega)).symm
  · rw [if_pos rfl, ← Int.add_emod_right, Int.emod_eq_of_lt (by omega) (by omega)]
    omega

/-- A round is Euler's criterion, for a witness coprime to the number. -/
theorem roundPasses_iff {n a : Nat} (hn : 2 ≤ n) :
    RoundPasses n a ↔ a.Coprime n ∧ jacobiSym a n ≡ a ^ ((n - 1) / 2) [ZMOD n] := by
  rw [RoundPasses, symbol_residue_eq_emod _ hn, Int.natCast_mod, Nat.cast_pow]
  rfl

/-- Euler's criterion holds at a prime, for every witness in range (R177 (b)). -/
theorem roundPasses_of_prime {n a : Nat} (hn : n.Prime) (hodd : n % 2 = 1) (ha : InRange n a) : RoundPasses n a := by
  have : Fact n.Prime := ⟨hn⟩
  have hhalf : (n - 1) / 2 = n / 2 := by omega
  obtain ⟨hlow, hhigh⟩ := ha
  refine (roundPasses_iff hn.two_le).2 ⟨(Nat.coprime_of_lt_prime (by omega) (by omega) hn).symm, ?_⟩
  rw [hhalf, ← jacobiSym.legendreSym.to_jacobiSym, ← ZMod.intCast_eq_intCast_iff, legendreSym.eq_pow, Int.cast_pow]

/-- The last witness is -1 modulo the number, and there the symbol is the power itself (R177 (c)). -/
theorem roundPasses_last {n : Nat} (hn : 2 ≤ n) (hodd : n % 2 = 1) : RoundPasses n (n - 1) := by
  have hlast : ((n - 1 : Nat) : Int) ≡ -1 [ZMOD n] := by
    rw [Nat.cast_pred (by omega), sub_eq_neg_add]
    exact Int.add_modEq_right
  have hhalf : (n - 1) / 2 = n / 2 := by omega
  refine (roundPasses_iff hn).2 ⟨(Nat.coprime_self_sub_left (by omega)).2 (Nat.coprime_one_left n), ?_⟩
  calc jacobiSym (n - 1 : Nat) n
    _ = jacobiSym (-1) n := jacobiSym.mod_left' hlast
    _ = (-1) ^ (n / 2) := (jacobiSym.at_neg_one (Nat.odd_iff.2 hodd)).trans (ZMod.χ₄_eq_neg_one_pow hodd)
    _ ≡ (n - 1 : Nat) ^ ((n - 1) / 2) [ZMOD n] := hhalf ▸ (hlast.pow _).symm

/-! ### The command (R170) -/

/-- The two checks of SSROUND end alike, so they are one. -/
theorem execSsround_eq (ra rb : Reg) (s : State) : exec (.ssround ra rb) s = .next
    (if s.isValid ra && s.isValid rb then
      if s.reg ra < 3 ∨ s.reg ra % 2 = 0 ∨ s.reg rb < 2 ∨ s.reg ra - 1 < s.reg rb then completeFatal .domain s
      else completeOk (s.setVerdict (ssRound (s.reg ra) (s.reg rb)) 1)
    else completeFatal .uninit s) := by
  refine congrArg _ ((withSources2_eq ..).trans ?_)
  simp only [emod, ite_or]

/-- Settles O53: SSROUND is the checks and then an OK completion that writes the verdict of one round. -/
theorem ssroundRunsOneRound : Obligations.SsroundRunsOneRound := by
  intro ra rb s
  refine ⟨decodeOfEncodeIsIdentity (.ssround ra rb) rfl,
    checkedValue_outcome .domain (execSsround_eq ra rb s) fun _ hdomain => ?_⟩
  have hround := ssRound_iff (n := s.reg ra) ⟨by omega, by omega⟩ (s.reg rb).toNat
  rw [Int.toNat_of_nonneg (by omega)] at hround
  exact ⟨_, hround, completeOk_eq _⟩

/-- Settles O59: the last witness is in the domain, and its round passes. -/
theorem lastWitnessPassesEveryOddNumber : Obligations.LastWitnessPassesEveryOddNumber := by
  intro ra rb s ha hb ⟨hthree, hodd⟩ hlast
  obtain ⟨-, t, hexec, h⟩ := ssroundRunsOneRound ra rb s
  rw [if_pos (by rw [ha, hb]; rfl), if_neg (by omega)] at h
  obtain ⟨b, hb, rfl⟩ := h
  have hpass : RoundPasses (s.reg ra).toNat (s.reg rb).toNat := by
    rw [hlast, Int.pred_toNat]
    exact roundPasses_last (by omega) (by omega)
  rw [hexec, hb.2 hpass]

end Sys2Proof.Machine
end

section
/-! SUPPORT. primality_test_controller (`47_primality_controller.md`), the test: passed rounds consume the answers one by
one, so what the first answer that is missing, bad or failing makes of the loop is what the test returns. PTEST and PCAND
end as that return says. -/

namespace Sys2Proof.Machine

/-! ### The rounds (R174) -/

section
variable {n : Int} {left r a : Nat} {rest : List Nat}

theorem isprobLoop_outOfRange (ha : ¬InRange n a) : isprobLoop n (left + 1) r (a :: rest) = .outOfRange := by
  rw [InRange] at ha
  rw [isprobLoop, if_pos (by omega)]

theorem isprobLoop_roundPasses (hn : NeedsRounds n) (ha : InRange n a) (h : RoundPasses n.toNat a) :
    isprobLoop n (left + 1) r (a :: rest) = isprobLoop n left (r + 1) rest := by
  rw [InRange] at ha
  rw [isprobLoop, if_neg (by omega), if_pos ((ssRound_iff hn a).2 h)]

theorem isprobLoop_roundFails (hn : NeedsRounds n) (ha : InRange n a) (h : ¬RoundPasses n.toNat a) :
    isprobLoop n (left + 1) r (a :: rest) = .verdict false (r + 1) := by
  rw [InRange] at ha
  rw [isprobLoop, if_neg (by omega), if_neg (mt (ssRound_iff hn a).1 h)]

end

theorem drop_eq_cons_of_getElem? {l : List Nat} {j a : Nat} (h : l[j]? = some a) : l.drop j = a :: l.drop (j + 1) := by
  rw [List.drop_eq_getElem?_toList_append, h]
  rfl

section
variable {n : Int} {ds : List Nat} {k : Nat}

/-- After `j` passed rounds the loop stands at answer `j`. -/
theorem isprob_of_passedFirst (hn : NeedsRounds n) {j : Nat} (hj : PassedFirst n ds j) (left : Nat) :
    isprob n (j + left) ds = isprobLoop n left j (ds.drop j) := by
  induction j generalizing left with
  | zero =>
    obtain ⟨hthree, hodd⟩ := hn
    rw [isprob, if_neg (by omega), if_neg (by omega), if_neg (by rw [emod]; omega), Nat.zero_add]
    rfl
  | succ j ih =>
    obtain ⟨a, ha, hrange, hpass⟩ := hj j j.lt_succ_self
    calc isprob n (j + 1 + left) ds
      _ = isprob n (j + (left + 1)) ds := by rw [Nat.add_right_comm, Nat.add_assoc]
      _ = isprobLoop n (left + 1) j (ds.drop j) := ih (fun i hi => hj i (hi.trans j.lt_succ_self)) _
      _ = isprobLoop n left (j + 1) (ds.drop (j + 1)) := by
        rw [drop_eq_cons_of_getElem? ha, isprobLoop_roundPasses hn hrange hpass]

/-- The loop at answer `j`, where `j` rounds passed and more are asked for. -/
theorem isprob_at_answer (hn : NeedsRounds n) {j a : Nat} (hjk : j < k) (hj : PassedFirst n ds j)
    (ha : ds[j]? = some a) : ∃ left, isprob n k ds = isprobLoop n (left + 1) j (a :: ds.drop (j + 1)) := by
  obtain ⟨left, rfl⟩ := Nat.exists_eq_add_of_lt hjk
  exact ⟨left, (isprob_of_passedFirst hn hj (left + 1)).trans (by rw [drop_eq_cons_of_getElem? ha])⟩

theorem isprob_of_testVerdict {b : Bool} {r : Nat} (h : TestVerdict n k ds b r) : isprob n k ds = .verdict b r := by
  rcases h with ⟨hn, rfl, rfl⟩ | ⟨hn, rfl, rfl⟩ | ⟨hn, heven, rfl, rfl⟩ | ⟨hn, hk, rfl, rfl⟩ |
    ⟨hn, j, hjk, hj, ⟨a, ha, hrange, hfail⟩, rfl, rfl⟩
  · rw [isprob, if_pos hn]
  · rw [isprob, if_neg (by omega), if_pos hn]
  · rw [isprob, if_neg (by omega), if_neg (by omega), if_pos (by rw [emod]; omega)]
  · exact isprob_of_passedFirst hn hk 0
  · obtain ⟨left, hloop⟩ := isprob_at_answer hn hjk hj ha
    exact hloop.trans (isprobLoop_roundFails hn hrange hfail)

theorem isprob_of_testBadAnswer (h : TestBadAnswer n k ds) : isprob n k ds = .outOfRange := by
  obtain ⟨hn, j, hjk, hj, a, ha, hbad⟩ := h
  obtain ⟨left, hloop⟩ := isprob_at_answer hn hjk hj ha
  exact hloop.trans (isprobLoop_outOfRange hbad)

theorem isprob_of_testWaits (h : TestWaits n k ds) : isprob n k ds = .needDraw := by
  obtain ⟨hn, hlt, hpassed⟩ := h
  obtain ⟨left, rfl⟩ := Nat.exists_eq_add_of_lt hlt
  refine (isprob_of_passedFirst hn hpassed (left + 1)).trans ?_
  rw [List.drop_length, isprobLoop]

end

/-- Every prime passes, with answers in range for all rounds; the prime 2 needs no answer (R177 (b)). -/
theorem testVerdict_of_prime {n k : Nat} {ds : List Nat} (hn : n.Prime)
    (hds : n ≠ 2 → k ≤ ds.length ∧ ∀ a ∈ ds, InRange n a) : TestVerdict n k ds true (if n = 2 then 0 else k) := by
  rcases hn.eq_two_or_odd with rfl | hodd
  · exact .inr (.inl ⟨rfl, rfl, if_pos rfl⟩)
  have hne : n ≠ 2 := by omega
  obtain ⟨hlen, hrange⟩ := hds hne
  have htwo := hn.two_le
  refine .inr (.inr (.inr (.inl ⟨⟨by omega, by omega⟩, fun i hi => ?_, rfl, if_neg hne⟩)))
  have ha := hrange _ (List.getElem_mem (hi.trans_le hlen))
  exact ⟨_, List.getElem?_eq_getElem _, ha, roundPasses_of_prime hn hodd ha⟩

/-! ### The end of a command that runs the test (R171, R240) -/

section
variable {n : Int} {k : Nat} {s : State} {done : Bool → Nat → State}

theorem finishTest_of_testVerdict {b : Bool} {r : Nat} (h : TestVerdict n k s.draws b r) :
    finishTest n k s done = completeOk (done b r) := by
  rw [finishTest, isprob_of_testVerdict h]

theorem finishTest_of_testBadAnswer (h : TestBadAnswer n k s.draws) :
    finishTest n k s done = completeFatal .rngRange s := by
  rw [finishTest, isprob_of_testBadAnswer h]

theorem finishTest_of_testWaits (h : TestWaits n k s.draws) : finishTest n k s done = requestDraw 2 (n - 1) s := by
  rw [finishTest, isprob_of_testWaits h]

end

/-! ### PTEST (R171) -/

theorem execPtest_of_valid {ra : Reg} {s : State} (imm : Imm16) (hv : s.isValid ra = true) :
    exec (.ptest ra imm) s = .next (finishTest (s.reg ra) imm.toNat s s.setVerdict) :=
  congrArg _ (withSource_valid _ hv)

/-- Settles O54: on a decided test PTEST is an OK completion that writes the verdict and the rounds. -/
theorem ptestCompletesWithVerdict : Obligations.PtestCompletesWithVerdict := by
  intro ra imm s b r hv h
  rw [execPtest_of_valid imm hv, finishTest_of_testVerdict h]
  rfl

/-- Settles O55: an undecided test ends as its first answer that is missing or bad says. -/
theorem ptestWaitsOrFaults : Obligations.PtestWaitsOrFaults := by
  intro ra imm s
  refine ⟨decodeOfEncodeIsIdentity (.ptest ra imm) rfl, fun hv => congrArg _ (withSource_invalid _ hv),
    fun hv h => ?_, fun hv h => ?_⟩
  · rw [execPtest_of_valid imm hv, finishTest_of_testBadAnswer h]
    rfl
  · rw [execPtest_of_valid imm hv, finishTest_of_testWaits h]
    rfl

/-! ### PCAND (R172) -/

theorem trialFilter_of_firstReject {p : Nat} {v : Int} (h : FirstReject p v) : trialFilter v = p := by
  obtain ⟨hmem, hreject, hmin⟩ := h
  rcases trialFilter_cases v with ⟨hmem', hreject', hmin'⟩ | ⟨hpass, -⟩
  · rcases lt_trichotomy (trialFilter v) p with hlt | heq | hgt
    · exact absurd hreject' (hmin _ hmem' hlt)
    · exact heq
    · exact absurd hreject (hmin' _ hmem hgt)
  · exact absurd hreject (hpass p hmem)

theorem trialFilter_of_passesFilter {v : Int} (h : PassesFilter v) : trialFilter v = 0 := by
  rcases trialFilter_cases v with ⟨hmem, hreject, -⟩ | ⟨-, hzero⟩
  · exact absurd hreject (h _ hmem)
  · exact hzero

section
variable {ra : Reg} {s : State}

theorem execPcand_of_firstReject (imm : Imm16) {p : Nat} (hv : s.isValid ra = true) (h : FirstReject p (s.reg ra)) :
    exec (.pcand ra imm) s = .next (completeOk ((s.setHit p).setVerdict false 0).countAttempt) := by
  have ⟨hmem, _, _⟩ := h
  refine congrArg _ ((withSource_valid _ hv).trans ?_)
  rw [trialFilter_of_firstReject h, if_pos (prime_of_mem_tablePrimes hmem).ne_zero]

theorem execPcand_of_passesFilter (imm : Imm16) (hv : s.isValid ra = true) (h : PassesFilter (s.reg ra)) :
    exec (.pcand ra imm) s = .next (finishTest (s.reg ra) imm.toNat s fun prime r =>
      ((s.setHit 0).setVerdict prime r).countAttempt) := by
  refine congrArg _ ((withSource_valid _ hv).trans ?_)
  rw [if_neg (not_not.2 (trialFilter_of_passesFilter h)), uimm]

end

/-- Settles O56: a rejected candidate takes its hit from the filter, any other its verdict from the test. -/
theorem pcandFiltersThenTests : Obligations.PcandFiltersThenTests := by
  intro ra imm s hv
  refine ⟨fun p h => ?_, fun b r hpass h => ?_⟩
  · have ⟨hmem, _, _⟩ := h
    rw [execPcand_of_firstReject imm hv h, State.setHit, decide_eq_true (prime_of_mem_tablePrimes hmem).ne_zero]
    rfl
  · rw [execPcand_of_passesFilter imm hv hpass, finishTest_of_testVerdict h]
    rfl

/-- Settles O57: behind the filter PCAND waits or faults as PTEST does. -/
theorem pcandWaitsOrFaults : Obligations.PcandWaitsOrFaults := by
  intro ra imm s
  refine ⟨decodeOfEncodeIsIdentity (.pcand ra imm) rfl, fun hv => congrArg _ (withSource_invalid _ hv),
    fun hv hpass h => ?_, fun hv hpass h => ?_⟩
  · rw [execPcand_of_passesFilter imm hv hpass, finishTest_of_testBadAnswer h]
    rfl
  · rw [execPcand_of_passesFilter imm hv hpass, finishTest_of_testWaits h]
    rfl

/-- Settles O58: a prime passes the filter and the test, so both commands complete on the verdict true. -/
theorem primesPassEveryTest : Obligations.PrimesPassEveryTest := by
  intro ra imm s n hv hreg hn hds
  have hverdict := testVerdict_of_prime hn hds
  have hpass := passesFilter_of_prime hn
  rw [← hreg] at hverdict hpass
  obtain ⟨-, hpcand⟩ := pcandFiltersThenTests ra imm s hv
  exact ⟨⟨_, ptestCompletesWithVerdict ra imm s _ _ hv hverdict, rfl, rfl, apply_ite (BitVec.ofNat 32) ..⟩,
    ⟨_, hpcand _ _ hpass hverdict, rfl, rfl, rfl⟩⟩

end Sys2Proof.Machine
end

section
/-! SUPPORT. The life of a command (`48_system.md` R185, `60_exceptions.md` R205): it is issued by a write of `CMD`, the
engine runs the command its word decodes to, and a fault is left by a reset alone. NOP (R192) is the completion and
nothing else. -/

namespace Sys2Proof.Machine

/-! ### Issue and run (R65, R88, R185) -/

/-- Settles O5: offset `0x010` names `CMD`. -/
theorem hostWriteOfCmdIssues : Obligations.HostWriteOfCmdIssues := fun s w =>
  have hcmd : memWrite 4 w s = writeCmd w s := rfl
  turn_hostWrite_of_memWrite hcmd

theorem engineStep_of_decode_ok {s : State} {i : Instr} (hb : s.status.busy = true) (h : decode s.cmd = .ok i) :
    engineStep s = exec i s := by
  rw [engineStep, if_pos hb, fetch, h]

/-- Settles O6: with its turn first or with no turn to come, the engine moves. -/
theorem engineRunsTheDecodedCommand : Obligations.EngineRunsTheDecodedCommand := by
  intro s i hb h
  refine ⟨(turn_eq_takeTurn .engine s).trans (engineStep_of_decode_ok hb h), fun hp => ?_⟩
  rw [step, hp]
  exact engineStep_of_decode_ok hb h

/-! ### NOP (R192) -/

/-- A word with a row's opcode that does not match the row has a must-be-zero field that is not zero (R87 (b)). -/
theorem decode_of_op_of_not_matches {r : OpRow} {w : Word} (hr : r ∈ opRows) (hop : opcodeOf w = r.op)
    (h : ¬r.Matches w) : decode w = .error .nonZeroField := by
  have hall : ¬r.zero.all (fun f => regField f w == 0) = true := fun hz =>
    h ⟨hop, fun f hf => beq_iff_eq.1 (List.all_eq_true.1 hz f hf)⟩
  simp only [decode, hop, find?_op_of_mem hr, if_neg hall]

/-- Settles O30: the row of NOP leaves no field free, so 0 is the one word that matches it. -/
theorem nopOnlyCompletes : Obligations.NopOnlyCompletes := by
  refine ⟨decodeOfEncodeIsIdentity .nop rfl, fun w hop hw => ?_, fun s => rfl⟩
  obtain ⟨r, hr, hrop, hall⟩ : ∃ r ∈ opRows, r.op = 0 ∧ ∀ f, f ∈ r.zero :=
    ⟨_, List.mem_cons_self, rfl, fun f => by cases f <;> decide⟩
  refine decode_of_op_of_not_matches hr (hop.trans hrop.symm) fun ⟨_, hz⟩ => hw ?_
  refine (word_eq_iff_fields w 0).2 ⟨hop, fun f => ?_⟩
  rw [hz f (hall f)]
  exact BitVec.extractLsb'_zero.symm

/-! ### The fault state (R205, R210) -/

/-- What a turn that does not reset can change while a fault is latched: the window, the bits a host access may change,
and the random-source channel. -/
theorem TurnEffect.frame_of_fault {s t : State} (h : TurnEffect s t) (hb : s.status.busy = false)
    (hf : s.status.fault = true) : t = { s with
      x := t.x, valid := t.valid, status := { s.status with done := t.status.done, herr := t.status.herr }
      ctrl := t.ctrl, attempts := t.attempts, rsel := t.rsel, drawReq := t.drawReq, draws := t.draws
      rdata := t.rdata, freeReads := t.freeReads } := by
  cases h with
  | idle => rfl
  | command hb' => exact absurd (hb.symm.trans hb') Bool.false_ne_true
  | access ha => rw [ha.frame]
  | issue w _ hf' => exact absurd (hf'.symm.trans hf) Bool.false_ne_true
  | answer v hq => rfl

/-- Settles O14: a faulted CORE is idle, so no turn but a reset reaches what the statement lists. -/
theorem faultIsLeftOnlyByReset : Obligations.FaultIsLeftOnlyByReset := by
  intro s t hs hf hr ht
  have hb : s.status.busy = false := Bool.eq_false_iff.2 fun hb => by simp [hs.status.busy_not_fault hb] at hf
  obtain ⟨u, l, e, hu⟩ := step_eq_takeTurn s
  obtain ⟨t', e', heff⟩ := takeTurn_effect { s with pending := l } (hu hr)
  obtain rfl : t' = t := Host.Outcome.next.inj (e'.symm.trans (e.symm.trans ht))
  rw [heff.frame_of_fault hb hf]
  exact ⟨hf, hb, rfl, rfl, rfl, rfl, rfl, rfl, rfl, rfl⟩

end Sys2Proof.Machine
end

section
/-! SUPPORT. The outcomes of the commands (`48_system.md` R185, `60_exceptions.md` R200 to R204): how each command can
end, with the codes the tables of R201 and R202 list for it, said once; the statements on outcomes are read off that. -/

namespace Sys2Proof.Machine

/-! ### What is written fits (R189) -/

section
variable {s : State} {ra rb rc : Reg}

theorem natAbs_emod_lt (v : Int) (hs : s.RegsInRange) (hc : s.isValid rc = true) (hm : 0 < s.reg rc) :
    (emod v (s.reg rc)).natAbs < 2 ^ s.params.W :=
  (Int.natAbs_lt_natAbs_of_nonneg_of_lt (Int.emod_nonneg v hm.ne') (Int.emod_lt_of_pos v hm)).trans (hs rc hc)

theorem natAbs_modpow_lt (base : Int) {e : Int} (he : ¬e < 0) (hs : s.RegsInRange) (hc : s.isValid rc = true)
    (hm : 0 < s.reg rc) : (modpow base e (s.reg rc)).natAbs < 2 ^ s.params.W := by
  obtain ⟨n, rfl⟩ := Int.eq_ofNat_of_zero_le (not_lt.1 he)
  rw [modpow_eq]
  exact natAbs_emod_lt _ hs hc hm

/-- The gcd and the two coefficients of operands in range are in range (R145). -/
theorem natAbs_xgcd_lt (hs : s.RegsInRange) (ha : s.isValid ra = true) (hb : s.isValid rb = true)
    (hsign : ¬(s.reg ra < 0 ∨ s.reg rb < 0)) :
    (xgcd (s.reg ra) (s.reg rb)).1.natAbs < 2 ^ s.params.W ∧
    (xgcd (s.reg ra) (s.reg rb)).2.1.natAbs < 2 ^ s.params.W ∧
    (xgcd (s.reg ra) (s.reg rb)).2.2.natAbs < 2 ^ s.params.W := by
  obtain ⟨-, hgcd, -, hx, hy⟩ := xgcd_spec (not_lt.1 (not_or.1 hsign).1) (not_lt.1 (not_or.1 hsign).2)
  exact ⟨hgcd ▸ gcd_lt_of_natAbs_lt (hs ra ha) (hs rb hb), natAbs_lt_of_abs_le_max hx (hs rb hb),
    natAbs_lt_of_abs_le_max hy (hs ra ha)⟩

/-- The symbol and its residue are in range where the lower argument is in the domain of R150. -/
theorem natAbs_symbol_lt (a : Int) (hn : ¬(s.reg rc ≤ 0 ∨ emod (s.reg rc) 2 = 0)) (hs : s.RegsInRange)
    (hc : s.isValid rc = true) : (jacobi a (s.reg rc)).natAbs < 2 ^ s.params.W ∧
      (jacobiResidue (jacobi a (s.reg rc)) (s.reg rc)).natAbs < 2 ^ s.params.W := by
  have hpos : 0 < s.reg rc := by omega
  rw [jacobi_eq a hpos (by simp only [emod] at hn; omega)]
  exact ⟨natAbs_jacobiSym_lt .., natAbs_jacobiResidue_lt a hpos (hs rc hc)⟩

end

/-! ### The listed endings -/

/-- The state command `i` leaves from `s`: an OK completion with no write outside the register file, the flags and the
unit counters; a recoverable completion with a code of R201's table; a fatal one, whose code is in R202's table for a
legal command and registers in range; or a draw requested, which running the command again requests again. -/
inductive ListedEnd (i : Instr) (s : State) : State → Prop
  | ok {t : State} (frame : t = { endedOk s with
      x := t.x, valid := t.valid, flags := t.flags, rounds := t.rounds, attempts := t.attempts, tdhit := t.tdhit }) :
      ListedEnd i s t
  | recoverable (c : RecoverableCode) (hc : c.code ∈ mayReturn i) : ListedEnd i s (completeRecoverable c s)
  | fatal (c : FatalCode) (hc : wellFormed i = true → s.RegsInRange → c.code ∈ mayRaise i) :
      ListedEnd i s (completeFatal c s)
  | waiting {lo hi : Int} (hd : isDrawing i = true)
      (again : exec i (requestDraw lo hi s) = .next (requestDraw lo hi s)) : ListedEnd i s (requestDraw lo hi s)

section
variable {i : Instr} {s : State}

theorem ListedEnd.ite {t u : State} {p : Prop} [Decidable p] (ht : p → ListedEnd i s t) (hu : ¬p → ListedEnd i s u) :
    ListedEnd i s (if p then t else u) := by
  split
  next hp => exact ht hp
  next hp => exact hu hp

/-- A check with a fatal code the table lists for the command. -/
theorem ListedEnd.check {k : State} {p : Prop} [Decidable p] (c : FatalCode) (hk : ¬p → ListedEnd i s k)
    (hc : c.code ∈ mayRaise i := by simp [mayRaise, FatalCode.code]) :
    ListedEnd i s (if p then completeFatal c s else k) :=
  .ite (fun _ => .fatal c fun _ _ => hc) hk

theorem ListedEnd.withSource {ra : Reg} {k : Int → State} (hk : s.isValid ra = true → ListedEnd i s (k (s.reg ra)))
    (hc : FatalCode.uninit.code ∈ mayRaise i := by simp [mayRaise, FatalCode.code]) :
    ListedEnd i s (withSource ra s k) :=
  .ite hk fun _ => .fatal .uninit fun _ _ => hc

theorem ListedEnd.withSources2 {ra rb : Reg} {k : Int → Int → State}
    (hk : s.isValid ra = true → s.isValid rb = true → ListedEnd i s (k (s.reg ra) (s.reg rb)))
    (hc : FatalCode.uninit.code ∈ mayRaise i := by simp [mayRaise, FatalCode.code]) :
    ListedEnd i s (withSources2 ra rb s k) :=
  .withSource (hc := hc) fun ha => .withSource (hc := hc) fun hb => hk ha hb

theorem ListedEnd.withSources3 {ra rb rc : Reg} {k : Int → Int → Int → State}
    (hk : s.isValid ra = true → s.isValid rb = true → s.isValid rc = true →
      ListedEnd i s (k (s.reg ra) (s.reg rb) (s.reg rc)))
    (hc : FatalCode.uninit.code ∈ mayRaise i := by simp [mayRaise, FatalCode.code]) :
    ListedEnd i s (withSources3 ra rb rc s k) :=
  .withSource (hc := hc) fun ha => .withSources2 (hc := hc) fun hb hc' => hk ha hb hc'

theorem ListedEnd.withModulus {m : Int} {k : State} (hk : 0 < m → ListedEnd i s k)
    (hc : FatalCode.badModulus.code ∈ mayRaise i := by simp [mayRaise, FatalCode.code]) :
    ListedEnd i s (withModulus m s k) :=
  .check .badModulus (fun hm => hk (not_le.1 hm)) hc

/-- A write-back commits, or overflows where the table lists that or a value does not fit. -/
theorem ListedEnd.writeBack {ws : List (Reg × Int)} {f : Flags} (hc : s.RegsInRange →
      (∃ w ∈ ws, 2 ^ s.params.W ≤ w.2.natAbs) → FatalCode.overflow.code ∈ mayRaise i) :
    ListedEnd i s (writeBack ws f s) := by
  rcases writeBack_cases ws f s with ⟨-, e⟩ | ⟨hw, e⟩ <;> rw [e]
  · exact .ok (by rw [setRegs_eq]; rfl)
  · exact .fatal .overflow fun _ hs => hc hs hw

/-- The write-back of a command whose row of the table lists `OVERFLOW`. -/
theorem ListedEnd.writeResult {rd : Reg} {v : Int}
    (hc : FatalCode.overflow.code ∈ mayRaise i := by simp [mayRaise, FatalCode.code]) :
    ListedEnd i s (writeResult rd v s) :=
  .writeBack fun _ _ => hc

/-- The write-back of values that fit, with registers in range, in any command. -/
theorem ListedEnd.writeBack_fits {ws : List (Reg × Int)} {f : Flags}
    (hfit : s.RegsInRange → ∀ w ∈ ws, w.2.natAbs < 2 ^ s.params.W) : ListedEnd i s (Machine.writeBack ws f s) :=
  .writeBack fun hs ⟨w, hw, hlarge⟩ => absurd (hfit hs w hw) hlarge.not_gt

theorem ListedEnd.writeOne_fits {rd : Reg} {v : Int} {f : Flags}
    (hfit : s.RegsInRange → v.natAbs < 2 ^ s.params.W) : ListedEnd i s (Machine.writeBack [(rd, v)] f s) :=
  .writeBack_fits fun hs => List.forall_mem_singleton.2 (hfit hs)

theorem finishTest_of_needDraw {n : Int} {k : Nat} {done : Bool → Nat → State} (h : isprob n k s.draws = .needDraw) :
    finishTest n k s done = requestDraw 2 (n - 1) s := by
  rw [finishTest, h]

/-- The request for a witness is no part of the test, so the test asks for the same witness again. -/
theorem finishTest_requestDraw {n : Int} {k : Nat} {done : Bool → Nat → State} (h : isprob n k s.draws = .needDraw) :
    finishTest n k (requestDraw 2 (n - 1) s) done = requestDraw 2 (n - 1) s :=
  finishTest_of_needDraw (s := requestDraw 2 (n - 1) s) h

theorem withSource_requestDraw {ra : Reg} {lo hi : Int} {k : Int → State} (hv : s.isValid ra = true) :
    withSource ra (requestDraw lo hi s) k = k (s.reg ra) :=
  withSource_valid (s := requestDraw lo hi s) k hv

theorem ListedEnd.finishTest {n : Int} {k : Nat} {done : Bool → Nat → State} (hd : isDrawing i = true)
    (hdone : ∀ b r, ListedEnd i s (completeOk (done b r)))
    (again : isprob n k s.draws = .needDraw → exec i (requestDraw 2 (n - 1) s) = .next (requestDraw 2 (n - 1) s))
    (hc : FatalCode.rngRange.code ∈ mayRaise i := by simp [mayRaise, FatalCode.code]) :
    ListedEnd i s (finishTest n k s done) := by
  rcases finishTest_cases n k s done with ⟨b, r, -, e⟩ | ⟨hp, e⟩ | ⟨-, e⟩ <;> rw [e]
  · exact hdone b r
  · exact .waiting hd (again hp)
  · exact .fatal .rngRange fun _ _ => hc

end

/-- Every command, in every state, ends as the tables list. -/
theorem exec_listedEnd (i : Instr) (s : State) : ∃ t, exec i s = .next t ∧ ListedEnd i s t := by
  cases i with
  | nop => exact ⟨_, rfl, .ok rfl⟩
  | add => exact ⟨_, rfl, .withSources2 fun _ _ => .writeResult⟩
  | sub => exact ⟨_, rfl, .withSources2 fun _ _ => .writeResult⟩
  | addi => exact ⟨_, rfl, .withSource fun _ => .writeResult⟩
  | ldi rd imm => exact ⟨_, rfl, .writeOne_fits fun _ => uimm_lt imm s.params⟩
  | mov rd ra => exact ⟨_, rfl, .withSource fun ha => .writeOne_fits fun hs => hs ra ha⟩
  | cmp => exact ⟨_, rfl, .withSources2 fun _ _ => .ok rfl⟩
  | cmpi => exact ⟨_, rfl, .withSource fun _ => .ok rfl⟩
  | tst => exact ⟨_, rfl, .withSource fun _ => .ok rfl⟩
  | mul => exact ⟨_, rfl, .withSources2 fun _ _ => .writeResult⟩
  | mulmod =>
    exact ⟨_, rfl, .withSources3 fun _ _ hc => .withModulus fun hm => .writeOne_fits fun hs =>
      natAbs_emod_lt _ hs hc hm⟩
  | montmul =>
    exact ⟨_, rfl, .withSources3 fun _ _ hc => .withModulus fun hm => .check .domain fun _ =>
      .writeOne_fits fun hs => natAbs_emod_lt _ hs hc hm⟩
  | montr2 =>
    exact ⟨_, rfl, .withSource fun hc => .withModulus fun hm => .writeOne_fits fun hs => natAbs_emod_lt _ hs hc hm⟩
  | modexp =>
    exact ⟨_, rfl, .withSources3 fun _ _ hc => .withModulus fun hm => .check .negExponent fun he =>
      .writeOne_fits fun hs => natAbs_modpow_lt _ he hs hc hm⟩
  | crypt =>
    exact ⟨_, rfl, .withSources3 fun _ _ hc => .withModulus fun hm => .check .negExponent fun he =>
      .ite (fun _ => .recoverable .blockTooLarge List.mem_cons_self) fun _ =>
        .writeOne_fits fun hs => natAbs_modpow_lt _ he hs hc hm⟩
  | gcd =>
    exact ⟨_, rfl, .withSources2 fun ha hb => .check .negOperand fun hsign =>
      .writeOne_fits fun hs => (natAbs_xgcd_lt hs ha hb hsign).1⟩
  | xgcd =>
    refine ⟨_, rfl, .ite (fun _ => .withSources2 fun ha hb => .check .negOperand fun hsign =>
      .writeBack_fits fun hs => ?_) fun hill => .fatal .illegalCmd fun hwf _ => absurd hwf hill⟩
    simpa using natAbs_xgcd_lt hs ha hb hsign
  | modinv =>
    exact ⟨_, rfl, .withSources2 fun _ hc => .withModulus fun hm => .check .negOperand fun _ =>
      .ite (fun _ => .recoverable .noInverse List.mem_cons_self) fun _ =>
        .writeOne_fits fun hs => natAbs_emod_lt _ hs hc hm⟩
  | jacobi =>
    exact ⟨_, rfl, .withSources2 fun _ hc => .check .domain fun hn =>
      .writeOne_fits fun hs => (natAbs_symbol_lt _ hn hs hc).1⟩
  | jacobir =>
    exact ⟨_, rfl, .withSources2 fun _ hc => .check .domain fun hn =>
      .writeOne_fits fun hs => (natAbs_symbol_lt _ hn hs hc).2⟩
  | tdiv => exact ⟨_, rfl, .withSource fun _ => .check .domain fun _ => .ok rfl⟩
  | tfilt => exact ⟨_, rfl, .withSource fun _ => .ok rfl⟩
  | ssround =>
    exact ⟨_, rfl, .withSources2 fun _ _ => .check .domain fun _ => .check .domain fun _ => .ok rfl⟩
  | ptest =>
    exact ⟨_, rfl, .withSource fun hv => .finishTest rfl (fun _ _ => .ok rfl) fun h =>
      congrArg _ ((withSource_requestDraw hv).trans (finishTest_requestDraw h))⟩
  | pcand =>
    exact ⟨_, rfl, .withSource fun hv => .ite (fun _ => .ok rfl) fun hpass =>
      .finishTest rfl (fun _ _ => .ok rfl) fun h =>
        congrArg _ ((withSource_requestDraw hv).trans ((if_neg hpass).trans (finishTest_requestDraw h)))⟩

/-- Settles O8: the listed endings are the outcomes of R185. -/
theorem commandEndsInOneOutcome : Obligations.CommandEndsInOneOutcome := by
  intro i s
  obtain ⟨t, ht, hend⟩ := exec_listedEnd i s
  refine ⟨t, ht, ?_⟩
  cases hend with
  | ok frame => exact .inl frame
  | recoverable c hc => exact .inr (.inl ⟨c.code, hc, completeRecoverable_eq c s⟩)
  | fatal c => exact .inr (.inr (.inl ⟨c.code, c.code_range.1, c.code_range.2, completeFatal_eq c s⟩))
  | waiting hd => exact .inr (.inr (.inr ⟨hd, rfl, rfl⟩))

theorem listedEnd_of_exec {i : Instr} {s t : State} (h : exec i s = .next t) : ListedEnd i s t := by
  obtain ⟨t', ht', hend⟩ := exec_listedEnd i s
  exact Host.Outcome.next.inj (ht'.symm.trans h) ▸ hend

/-- Settles O29: the three completions leave `BUSY = 0`, so a busy end is the one that waits. -/
theorem waitingCommandHangs : Obligations.WaitingCommandHangs := by
  intro i s t ht hb
  cases listedEnd_of_exec ht with
  | ok frame => rw [frame] at hb; cases hb
  | recoverable | fatal => cases hb
  | waiting hd again => exact ⟨hd, again⟩

/-- Settles O9: of the listed endings only the fatal one sets `FAULT`. -/
theorem fatalCodesRaisedAsListed : Obligations.FatalCodesRaisedAsListed := by
  intro i s t hwf hs hf ht hfault
  have hkept : ¬s.status.fault = true := Bool.eq_false_iff.1 hf
  cases listedEnd_of_exec ht with
  | ok frame => rw [frame] at hfault; exact absurd hfault hkept
  | recoverable | waiting => exact absurd hfault hkept
  | fatal c hc => exact ⟨hc hwf hs, completeFatal_eq c s⟩

end Sys2Proof.Machine
end
